-- ==== Sys2Proof/Word.lean ====
section
/-! DEFINITION. The word types of the NDC-24: bytes of the two lines and of the EEPROM, and tag numbers, whose leading
bits the routing table compares (R31). Everything else the manual counts is a natural number. -/

namespace Sys2Proof

/-- A byte of a frame (R159) or of the EEPROM (R177). -/
abbrev Byte := BitVec 8

/-- A tag number, 32-bit unsigned (00_scope.md, units). -/
abbrev Tag := BitVec 32

/-- The values 0 and 4,294,967,295 are not tags (00_scope.md, units). -/
abbrev isTag (t : Tag) : Bool := t != 0#32 && t != 0xFFFFFFFF#32

end Sys2Proof
end

