-- ==== Sys2Proof/Syntax.lean ====
section
/-! DEFINITION. The commands of the NDC-24: one constructor of `Instr` per row of spec/opcode_table.json. The operands
of a request are the fields of its body as they stand on the line (R165, R168, R180), each as wide as its field; a
count field is the length of the list it counts. The operands of an event are what the module is told at it. -/

namespace Sys2Proof

/-- The two serial lines (R158). -/
inductive Line where
  | branch | panel
deriving DecidableEq, Repr

/-- The two tag readers (R101). -/
inductive ReaderId where
  | drawer | hatch
deriving DecidableEq, Repr

/-- A completed read: good reads carry a tag number (R101). -/
inductive TagRead where
  | bad
  | good (tag : Tag)
deriving DecidableEq, Repr

/-- The direction of one step of the drum (R79). -/
inductive Dir where
  | forward | backward
deriving DecidableEq, Repr

/-- The configuration straps (R176). -/
structure Straps where
  address : BitVec 5
  autoloadOff : Bool
  timeLockEnable : Bool
deriving DecidableEq, Repr

/-- What the field lines read: the drawer's sensors and height array (beam n is bit n − 1, R100), the hatch-shut
sensor (R87), the reference mark sensor (R93) and the time-lock contact (R137). -/
structure Levels where
  drawerShut : Bool
  bagPresent : Bool
  beams : BitVec 4
  hatchShut : Bool
  refMark : Bool
  timeLockClosed : Bool
deriving DecidableEq, Repr

/-- A breakdown line as ADVS carries it (R118). -/
structure LineField where
  denom : BitVec 8
  count : BitVec 16
deriving DecidableEq, Repr

/-- A denomination entry as DENW carries it (R46). -/
structure DenomField where
  face : BitVec 24
  mass : BitVec 16
  spread : BitVec 8
deriving DecidableEq, Repr

/-- The six values of a tolerance set as TOLW carries them (R49, R50). -/
structure TolField where
  tare : BitVec 24
  tareSpread : BitVec 24
  lower : BitVec 24
  upper : BitVec 24
  plausMin : BitVec 24
  plausMax : BitVec 24
deriving DecidableEq, Repr

/-- The fields of a range entry as RNGW carries them after the entry number (section 2.2). -/
structure RangeField where
  enabled : BitVec 8
  base : BitVec 32
  prefixLength : BitVec 8
  closed : BitVec 8
  audit : BitVec 8
  tolSet : BitVec 8
  cap : BitVec 8
  group : List (BitVec 8)
deriving DecidableEq, Repr

/-- A roster entry as ROST carries it (R136, R168). -/
structure StaffField where
  id : BitVec 24
  role : BitVec 8
deriving DecidableEq, Repr

/-- A count policy term as POLW carries it (R152, R168). -/
structure TermField where
  condition : BitVec 8
  invert : BitVec 8
deriving DecidableEq, Repr

/-- The 15-byte written body of TIMW (R180). -/
structure TimerField where
  grace : BitVec 16
  handover : BitVec 8
  pairing : BitVec 16
  idle : BitVec 16
  step : BitVec 16
  settle : BitVec 16
  prePosition : BitVec 8
  weakOption : BitVec 8
  enables : BitVec 16
deriving DecidableEq, Repr

/-- A completed frame (R159) less its start byte; the length byte is the body's length plus 4. -/
structure Frame where
  address : BitVec 8
  name : BitVec 32
  body : List Byte
  crc : BitVec 16
deriving DecidableEq, Repr

/-- The commands. A request's rule is named in its docstring's line; an event's too. -/
inductive Instr where
  /-- R118 to R129. -/
  | advs (tag : Tag) (customer : BitVec 24) (declared : BitVec 40) (lines : List LineField)
  /-- R130. -/
  | wdrw (tag : Tag)
  /-- R131. -/
  | retr (tag : Tag)
  /-- R19, R98. -/
  | nopn
  /-- R19, R98, R132. -/
  | ncls
  /-- R21. -/
  | read (receipt : BitVec 16)
  /-- R22. -/
  | ftag (tag : Tag)
  /-- R23. -/
  | lcus (customer : BitVec 24) (start : BitVec 16)
  /-- R23. -/
  | lsta (state : BitVec 8) (start : BitVec 16)
  /-- R24. -/
  | lpkt (pocket start : BitVec 8)
  /-- R78, R169. -/
  | pkts (pocket : BitVec 8)
  /-- R169. -/
  | ntot
  /-- R172. -/
  | stat
  /-- R173. -/
  | clrs (codes : List (BitVec 8))
  /-- R155, R156. -/
  | cnfm (receipt : BitVec 16) (counted : BitVec 40) (ids : List (BitVec 24))
  /-- R137. -/
  | wndw (field : BitVec 8)
  /-- R111 to R114. -/
  | jamc (id : BitVec 24) (disposition : BitVec 8)
  /-- R92. -/
  | home (id : BitVec 24)
  /-- R28. -/
  | ackl (id : BitVec 24)
  /-- R75. -/
  | pcap (pocket capacity : BitVec 8)
  /-- R32, R33. -/
  | rngw (entry : BitVec 8) (field : RangeField)
  /-- R35. -/
  | rnga
  /-- R35. -/
  | genr
  /-- R46, R47. -/
  | denw (start : BitVec 8) (entries : List DenomField)
  /-- R50. -/
  | tolw (set : BitVec 8) (field : TolField)
  /-- R136. -/
  | rost (entries : List StaffField)
  /-- R152. -/
  | polw (terms : List TermField)
  /-- The written form of TIMW, R180. -/
  | timw (field : TimerField)
  /-- The empty-body form of TIMW, R180. -/
  | timwRead
  /-- R175. -/
  | time (seconds : BitVec 24)
  /-- R181. -/
  | save
  /-- R182: whether the EEPROM answers, and the image bytes that it holds otherwise than they were written. -/
  | saveCompletion (answers : Bool) (differs : List (Nat × Byte))
  /-- R29. -/
  | wipe
  /-- R139 to R141. -/
  | cred (id : BitVec 24)
  /-- R143. -/
  | prtv (pocket : BitVec 8)
  /-- R150. -/
  | notg (receipt : BitVec 16)
  /-- R142. -/
  | pcls
  /-- R162: a frame has been completed on a line. -/
  | frameRejected (line : Line) (frame : Frame)
  /-- R160. -/
  | frameGap (line : Line)
  /-- R163. -/
  | replyEnd (line : Line)
  /-- R183. -/
  | resetHold
  /-- R183, R26, R27, R178: the straps and field lines at the restart, whether the backup supply failed while main
  power was off, whether the EEPROM answers the read, and how many writes of a save under way had been made. -/
  | restart (straps : Straps) (levels : Levels) (backupLost : Bool) (eepromAnswers : Bool) (saveWrites : Nat)
  /-- R99. -/
  | drawerOpened
  /-- R99, R100: the drawer's sensors as they read at the shut. -/
  | drawerShut (bagPresent : Bool) (beams : BitVec 4)
  /-- R99. -/
  | drawerTimerExpiry
  /-- R101. -/
  | tagReadComplete (reader : ReaderId) (read : TagRead)
  /-- R102. -/
  | drawerReadTaken
  /-- R103. -/
  | tagWindowExpiry
  /-- R104: a signed value in tenths of a gram and the steady mark. -/
  | scaleReading (value : Int) (steady : Bool)
  /-- R104. -/
  | weighTimerExpiry
  /-- R36 to R42, R106. -/
  | routeDecision
  /-- R56. -/
  | jobStart
  /-- R58. -/
  | jobCompletion
  /-- R84, R85. -/
  | carouselServe
  /-- R85. -/
  | settleExpiry
  /-- R79, R82, R90, R93. -/
  | encoderStep (dir : Dir)
  /-- R82. -/
  | arrivalTimerExpiry
  /-- R93. -/
  | referenceMark
  /-- R93. -/
  | homingTimerExpiry
  /-- R87, R144, R145, R93: the sensor reads shut or open. -/
  | hatchShutSensor (shut : Bool)
  /-- R145. -/
  | unopenedTimerExpiry
  /-- R109. -/
  | tipCompletion
  /-- R108. -/
  | tipTimerExpiry
  /-- R146 to R149: the release controller takes a hatch read, at a time in milliseconds. -/
  | hatchScan (atMs : Nat)
  /-- R146. -/
  | lampExpiry
  /-- R9: the grace timer of the record with this receipt. -/
  | graceExpiry (receipt : Nat)
  /-- R153: the handover timer of the record with this receipt. -/
  | handoverExpiry (receipt : Nat)
  /-- R140. -/
  | pairingExpiry
  /-- R141. -/
  | idleExpiry
  /-- R137. -/
  | timeLockContact (closed : Bool)
  /-- R175. -/
  | clockTick
  /-- R160. -/
  | lineByteReceived (line : Line) (byte : Byte)
deriving DecidableEq, Repr

end Sys2Proof
end

