-- ==== Sys2Proof/Machine/State.lean ====
section
/-! DEFINITION. The state of the NDC-24 as plain data, block by block (00_scope.md), why a command can stop, and the
machine right after reset. -/

namespace Sys2Proof.Machine

/-! ## The custody register (Chapter 1) -/

/-- The seven record states (R4). -/
inductive RecState where
  | advised | intake | grace | held | staged | overdue | missing
deriving DecidableEq, Repr

/-- The advice mark (R1). -/
inductive AdviceMark where
  | none | before | inGrace | late
deriving DecidableEq, Repr

/-- The routing range that ended a route (R1, R34). -/
inductive RangeRef where
  | entry (n : Fin 8)
  | general
deriving DecidableEq, Repr

/-- Where the bag of a record is (R1, R4). -/
inductive Location where
  | absent
  | drawer
  | pocket (p : Fin 21)
  | out
deriving DecidableEq, Repr

/-- The exception causes (R1). -/
inductive Cause where
  | noTag | twoTags | dupTag | noRange | rangeClosed | cap | noRoom | audit
deriving DecidableEq, Repr

/-- The verdicts (R1, R70). -/
inductive Verdict where
  | pending | inside | light | heavy | wrong
deriving DecidableEq, Repr

/-- One line of a breakdown (R1). -/
structure BreakdownLine where
  denom : Fin 16
  count : Nat
deriving DecidableEq, Repr

/-- An attached advice: a record carries all three or none (R118). -/
structure Advice where
  customer : Nat
  lines : List BreakdownLine
  declared : Nat
deriving DecidableEq, Repr

/-- A custody record. A field that the creating event does not set starts as its default here (R1). -/
structure Record where
  receipt : Nat
  tag : Option Tag := .none
  claims : Bool := false
  state : RecState
  advice : Option Advice := .none
  mark : AdviceMark := .none
  range : Option RangeRef := .none
  tolSet : Fin 4 := 0
  location : Location
  nominal : Option (Fin 21) := .none
  cause : Option Cause := .none
  size : Option Nat := .none
  mass : Option Nat := .none
  overRange : Bool := false
  unsteady : Bool := false
  verdict : Option Verdict := .none
  deviation : Option Int := .none
  valueSum : Option Nat := .none
  slipMismatch : Bool := false
  countRequired : Bool := false
  dropTime : Option Nat := .none
  interrupted : Bool := false
  jammed : Bool := false
  /-- The grace timer: stopped, or running with the interval it was started with, in seconds (R9, log 2). -/
  grace : Option Nat := .none
deriving DecidableEq, Repr

/-- The night state (R19). -/
inductive Night where
  | day | night
deriving DecidableEq, Repr

/-- The night totals (R20). -/
structure NightTotals where
  bags : Nat := 0
  exceptions : Nat := 0
  declared : Nat := 0
  mass : Nat := 0
deriving DecidableEq, Repr

/-- The custody register. -/
structure Register where
  /-- In ascending receipt order, at most 384 (R2). -/
  records : List Record
  /-- In ascending tag order (R14). -/
  tagIndex : List (Tag × Nat)
  receiptCounter : Nat
  /-- The pocket lists in tip order (R16). -/
  lists : Vector (List Nat) 21
  night : Night
  totals : NightTotals
  lossPending : Bool
  storeValid : Bool
  /-- In seconds (R180). -/
  graceInterval : Nat
deriving DecidableEq, Repr

/-! ## The routing table (Chapter 2) -/

/-- A range entry with its defaults (R30). -/
structure RangeEntry where
  enabled : Bool := false
  base : Tag := 0
  prefixLength : Nat := 8
  closed : Bool := false
  audit : Bool := false
  group : List (Fin 21) := [1]
  tolSet : Fin 4 := 0
  cap : Nat := 0
deriving DecidableEq, Repr

/-- The routing table and the general-routing flag (R30, R34). -/
structure Routing where
  entries : Vector RangeEntry 8
  general : Bool
deriving DecidableEq, Repr

/-! ## The weighing arithmetic unit (Chapter 3) -/

/-- A denomination entry with its defaults (R45). -/
structure Denomination where
  face : Nat := 0
  mass : Nat := 0
  spread : Nat := 0
deriving DecidableEq, Repr

/-- A tolerance set with its defaults (R49). -/
structure ToleranceSet where
  tare : Nat := 60000
  tareSpread : Nat := 2000
  lower : Nat := 5000
  upper : Nat := 5000
  plausMin : Nat := 200
  plausMax : Nat := 150000
deriving DecidableEq, Repr

/-- A job (R52). -/
structure Job where
  receipt : Nat
  tag : Option Tag
deriving DecidableEq, Repr

/-- A breakdown line with the denomination entry it names, as a job takes it (R62). -/
structure CheckLine where
  count : Nat
  denom : Denomination
deriving DecidableEq, Repr

/-- What a job takes at its start (R56): the advice's lines and declared total are present for a breakdown check. -/
structure JobInputs where
  mass : Option Nat
  tol : ToleranceSet
  advice : Option (List CheckLine × Nat)
deriving DecidableEq, Repr

/-- The WAU: WORKING while `working` holds the head job's inputs, IDLE otherwise (R52). -/
structure Wau where
  denoms : Vector Denomination 16
  tols : Vector ToleranceSet 4
  queue : List Job
  working : Option JobInputs
deriving DecidableEq, Repr

/-! ## The pocket and carousel controller (Chapter 4) -/

/-- A pocket record less its held units, which follow from the one hold (R71, R74). -/
structure Pocket where
  capacity : Nat := 24
  used : Nat := 0
  bags : Nat := 0
  declared : Nat := 0
  mass : Nat := 0
deriving DecidableEq, Repr

/-- The hold of the drop under way (R74). -/
structure Hold where
  pocket : Fin 21
  units : Nat
deriving DecidableEq, Repr

/-- The source of a positioning request (R83). -/
inductive Source where
  | intake | release
deriving DecidableEq, Repr

/-- Where a positioning request stands: waiting, being moved for, or arrived with the station held (R85). -/
inductive Stage where
  | waiting | serving | inService
deriving DecidableEq, Repr

/-- A positioning request (R83); the release controller marks its own as withdrawn (R142). -/
structure PosRequest where
  source : Source
  target : Fin 21
  pocket : Fin 21
  stage : Stage := .waiting
  withdrawn : Bool := false
deriving DecidableEq, Repr

/-- A move with the intervals it took when it left IDLE (R80). -/
structure Move where
  target : Fin 21
  dir : Dir
  steps : Nat
  stepMs : Nat
  settleMs : Nat
  prePosition : Bool
deriving DecidableEq, Repr

/-- A homing search: the steps taken, the step interval it keeps, its timer (R93). -/
structure Search where
  steps : Nat
  stepMs : Nat
  timerMs : Nat
deriving DecidableEq, Repr

/-- The carousel state (R81). The settle timer runs in SETTLE, the arrival timer in MOVING with the interval it was
set to (R82), the homing timer once the search has begun (R93). -/
inductive Drum where
  | idle
  | settle (m : Move)
  | moving (m : Move) (arrivalMs : Nat)
  | homing (search : Option Search)
  | fault
deriving DecidableEq, Repr

/-- The pocket and carousel controller. -/
structure Carousel where
  pockets : Vector Pocket 21
  hold : Option Hold
  drum : Drum
  position : Option (Fin 21)
  lastDir : Option Dir
  /-- In the order of entry (R83). -/
  queue : List PosRequest
  /-- The last intake pocket with the range that routed it (R88). -/
  lastIntake : Option (Fin 21 × Option RangeRef)
  stepInterval : Nat
  settleInterval : Nat
  prePosition : Bool
  weakOption : Bool
deriving DecidableEq, Repr

/-! ## The intake sequencer (Chapter 5) -/

/-- The ten states of the intake sequencer (R94). -/
inductive Phase where
  | closed | shut | ready | loading | identify | weigh | route | position | tip | jammed
deriving DecidableEq, Repr

/-- The readings of the drop under way (R94). -/
structure Readings where
  firstTag : Option Tag := .none
  secondTag : Bool := false
  size : Option Nat := .none
  /-- The last reading that arrived in WEIGH (R104). -/
  lastReading : Option Int := .none
  mass : Option Nat := .none
  overRange : Bool := false
  unsteady : Bool := false
  chosen : Option (Fin 21) := .none
deriving DecidableEq, Repr

/-- The two slots of a tag reader (R101). -/
structure ReaderSlots where
  receive : Option TagRead := .none
  holding : Option TagRead := .none
deriving DecidableEq, Repr

/-- The intake sequencer. Its timers are stopped, or running with the interval in ms they were started with. -/
structure Intake where
  phase : Phase
  readings : Readings := {}
  drawerTimer : Option Nat := .none
  tagWindow : Option Nat := .none
  weighTimer : Option Nat := .none
  tipTimer : Option Nat := .none
  reader : ReaderSlots := {}
  /-- The homing of this restart has not ended yet, and its end reads the drawer's sensors (R117). -/
  takeUp : Bool := false
deriving DecidableEq, Repr

/-! ## The release controller (Chapter 7) -/

/-- The staff roles (R135). -/
inductive Role where
  | teller | supervisor
deriving DecidableEq, Repr

/-- A roster entry (R135). -/
structure Staff where
  id : Nat
  role : Role
deriving DecidableEq, Repr

/-- The session (R138): PAIRING holds the first id and the pairing timer, OPEN the idle timer, both in seconds. -/
inductive Session where
  | closed
  | pairing (firstId : Nat) (timer : Nat)
  | opened (idle : Nat)
deriving DecidableEq, Repr

/-- The hatch (R144). -/
inductive Hatch where
  | locked | unlocked | opened
deriving DecidableEq, Repr

/-- The lamps of the hatch reader station: lighting one puts out the other (R146). -/
inductive Lamp where
  | accept | refuse
deriving DecidableEq, Repr

/-- The conditions of the count policy, in the order of their codes (R151, R165). -/
inductive Condition where
  | inside | light | heavy | wrong | unadvised | lateAdvice | slipSum | overRange | unsteady | exception | interrupted
deriving DecidableEq, Repr

/-- A term of the count policy (R151). -/
structure PolicyTerm where
  condition : Condition
  invert : Bool
deriving DecidableEq, Repr

/-- The tag and time of the last staging from the open pocket (R146). -/
structure Guard where
  tag : Tag
  atMs : Nat
deriving DecidableEq, Repr

/-- The default count policy (R151). -/
def defaultPolicy : List PolicyTerm := [⟨.inside, true⟩, ⟨.exception, false⟩]

/-- The release controller. -/
structure Release where
  roster : List Staff
  wndw : Bool := false
  session : Session := .closed
  openPocket : Option (Fin 21) := .none
  hatch : Hatch := .locked
  unopenedTimer : Option Nat := .none
  guardMark : Option Guard := .none
  lamp : Option Lamp := .none
  reader : ReaderSlots := {}
  policy : List PolicyTerm
  /-- One timer, in minutes, for each record in STAGED, by its receipt (R153). -/
  handoverTimers : List (Nat × Nat) := []
  handoverInterval : Nat
  pairingInterval : Nat
  idleInterval : Nat
deriving DecidableEq, Repr

/-! ## Link and status (Chapter 8) -/

/-- The outcome words (R164). -/
inductive OutcomeWord where
  | ok | late | collide | busy | full | notFound | badState | badValue | deny | second | noRoom | same | none | unknown
deriving DecidableEq, Repr

/-- What the owning block answers: an outcome word and the reply data (R164). -/
structure Answer where
  word : OutcomeWord
  data : List Byte := []
deriving DecidableEq, Repr

/-- A reply being sent: the name of its request unchanged, and the answer (R164). -/
structure Reply where
  name : BitVec 32
  answer : Answer
deriving DecidableEq, Repr

/-- A frame receiver: in FRAME it holds the bytes taken since the start byte (R160). -/
inductive Receiver where
  | hunt
  | frame (bytes : List Byte)
deriving DecidableEq, Repr

/-- A line: its receiver, and the reply whose last byte has not been sent yet (R160, R163). -/
structure LineState where
  receiver : Receiver := .hunt
  reply : Option Reply := .none
deriving DecidableEq, Repr

/-- The status flags, in the order of their codes (R170). -/
inductive StatusFlag where
  | dropDone | exceptionDrop | graceExpired | lateAdvice | overdue | pocketLast | pocketFull | jam | carouselFault
  | chuteShut | storeLost | readerOverrun | wrongPocketScan | drawerHeld | settingsFault | saveDone
deriving DecidableEq, Repr

/-- One status flag and its raise count (R171). -/
structure FlagCell where
  set : Bool := false
  count : Nat := 0
deriving DecidableEq, Repr

/-- Link and status. -/
structure Link where
  branch : LineState := {}
  panel : LineState := {}
  /-- The flag of code c is at place c − 1 (R170). -/
  flags : Vector FlagCell 16
  /-- The flag of code c is enabled when bit c − 1 is 1 (R180). -/
  enables : BitVec 16
  /-- The attention output is asserted (R174). -/
  attention : Bool
  clock : Option Nat := .none
deriving DecidableEq, Repr

/-! ## The settings store (Chapter 9) -/

/-- The start-up outcomes (R178). -/
inductive LoadOutcome where
  | defaults | blank | bad | loaded
deriving DecidableEq, Repr

/-- The settings store. -/
structure Settings where
  straps : Straps
  outcome : LoadOutcome
  notConfigured : Bool
  /-- SAVING holds the copy taken (R181). -/
  saving : Option (List Byte) := .none
  /-- The EEPROM (R177): listed bytes by rising address; an unlisted byte reads FF hex. -/
  eeprom : List Host.Cell
  /-- The model's own: how many saves have been taken, read by the free value of log 12 only. -/
  saves : Nat := 0
deriving DecidableEq, Repr

/-! ## The machine -/

/-- The state of the module. -/
structure State where
  cr : Register
  trt : Routing
  wau : Wau
  pcc : Carousel
  intake : Intake
  rc : Release
  ls : Link
  ss : Settings
  /-- What the field lines read now. -/
  pins : Levels
  /-- RESET_N is held, or main power is coming up (R183). -/
  resetHeld : Bool
  /-- The commands that wait, first in first out. -/
  pending : List Instr
deriving DecidableEq, Repr

/-- Why a command stops. -/
inductive Fault where
  /-- Raised by TAG_WINDOW_EXPIRY when identification needs a new record and all 384 slots are taken. R2 and R103 say
  that a slot is free there, and the spec gives no effect otherwise. Safe: the model stops (log 15). -/
  | noFreeSlot
deriving DecidableEq, Repr

/-- Why a command has no meaning. -/
inductive Refusal where
  /-- Raised by an arm of exec whose command has no meaning yet; no arm does. Safe: the model stops. -/
  | notModelled (mnemonic : String)
deriving DecidableEq, Repr

/-! ## Reset -/

/-- The empty register of a store loss (R27), with the default grace interval (R180). -/
def Register.lost : Register where
  records := []
  tagIndex := []
  receiptCounter := 1
  lists := Vector.replicate 21 []
  night := .day
  totals := {}
  lossPending := true
  storeValid := true
  graceInterval := 300

/-- Right after reset: start-up with the retained store lost and an EEPROM never written, so that the spec gives every
register its value (R27, R178 row BLANK, R183). DESIGN CHOICE (log 3): the straps and what the pins read. The hatch pin
reads shut, so the homing search has begun, with 43 step intervals on its timer (R93, log 8). DESIGN CHOICE (log 23): the last
direction is unknown until homing sets it (R80). -/
def State.reset : State where
  cr := .lost
  trt := { entries := Vector.replicate 8 {}, general := true }
  wau := { denoms := Vector.replicate 16 {}, tols := Vector.replicate 4 {}, queue := [], working := .none }
  pcc := { pockets := Vector.replicate 21 {}, hold := .none
           drum := .homing (some { steps := 0, stepMs := 250, timerMs := 43 * 250 })
           position := .none, lastDir := .none, queue := [], lastIntake := .none
           stepInterval := 250, settleInterval := 400, prePosition := false, weakOption := true }
  intake := { phase := .closed, takeUp := true }
  rc := { roster := [], policy := defaultPolicy, handoverInterval := 30, pairingInterval := 60, idleInterval := 600 }
  ls := { flags := (Vector.replicate 16 {}).set 10 { set := true, count := 1 }, enables := 0xFFFF#16
          attention := true }
  ss := { straps := { address := 1#5, autoloadOff := false, timeLockEnable := false }, outcome := .blank
          notConfigured := true, eeprom := [] }
  pins := { drawerShut := true, bagPresent := false, beams := 0#4, hatchShut := true, refMark := false
            timeLockClosed := false }
  resetHeld := false
  pending := []

end Sys2Proof.Machine
end

