-- ==== Sys2Proof/Machine/Bytes.lean ====
section
/-! DEFINITION. Byte order and the CRC of the two lines and of the settings image (R161, R165, R177). -/

namespace Sys2Proof.Machine

/-- The low `n` bytes of `x`, big-endian (R165). -/
def be : Nat → Nat → List Byte
  | 0, _ => []
  | n + 1, x => BitVec.ofNat 8 (x / 256 ^ n) :: be n x

/-- The number a big-endian byte list stands for (R165). -/
def beNat (bytes : List Byte) : Nat := bytes.foldl (fun acc b => acc * 256 + b.toNat) 0

/-- A big-endian field of a body (R165). -/
def field (w : Nat) (bytes : List Byte) : BitVec w := BitVec.ofNat w (beNat bytes)

/-- A signed number in two's complement, in `n` bytes (R165). -/
def beInt (n : Nat) (x : Int) : List Byte := be n (x % (256 ^ n : Nat)).toNat

/-- One bit of the CRC: shift left, and exclusive-or with 1021 hex when the bit shifted out differs from the data bit
(R161). -/
def crcBit (r : BitVec 16) (d : Bool) : BitVec 16 := if r.msb != d then (r <<< 1) ^^^ 0x1021#16 else r <<< 1

/-- One byte of the CRC, most significant bit first (R161). -/
def crcByte (r : BitVec 16) (b : Byte) : BitVec 16 :=
  [7, 6, 5, 4, 3, 2, 1, 0].foldl (fun r i => crcBit r (b.getLsbD i)) r

/-- The CRC-16 of a byte list, started at FFFF hex (R161). -/
def crc16 (bytes : List Byte) : BitVec 16 := bytes.foldl crcByte 0xFFFF#16

/-- The bytes a frame's CRC is computed over: address, length, name and body (R161). -/
def frameBytes (address : Byte) (name : BitVec 32) (body : List Byte) : List Byte :=
  address :: BitVec.ofNat 8 (body.length + 4) :: (be 4 name.toNat ++ body)

/-- A whole frame on the line (R159). -/
def wireFrame (address : Byte) (name : BitVec 32) (body : List Byte) : List Byte :=
  0xA5#8 :: (frameBytes address name body ++ be 2 (crc16 (frameBytes address name body)).toNat)

end Sys2Proof.Machine
end

