-- ==== Sys2Proof/WellFormed.lean ====
section
/-! DEFINITION. Which commands can be sent: a request whose body fits one frame (R159: name and body together are at
most 250 bytes, so the body at most 246), a frame the same, a save's differing bytes inside the image (R177) and a
count of the writes of a save (R181). -/

namespace Sys2Proof

/-- The most bytes a body may have: the length byte counts name and body and is at most 250 (R159). -/
def maxBody : Nat := 246

/-- The writes of one save: the format byte as 0, the other 434 bytes, the format byte as 1 (R181). -/
def saveWriteCount : Nat := 436

/-- The length of the settings image in bytes (R177). -/
def imageLength : Nat := 435

/-- A command that can be sent. The lists of a request are bounded by its body size in R168. -/
def Instr.wf : Instr → Bool
  | .advs _ _ _ lines => 13 + 3 * lines.length ≤ maxBody
  | .clrs codes => 1 + codes.length ≤ maxBody
  | .cnfm _ _ ids => 8 + 3 * ids.length ≤ maxBody
  | .rngw _ field => 12 + field.group.length ≤ maxBody
  | .denw _ entries => 2 + 6 * entries.length ≤ maxBody
  | .rost entries => 1 + 4 * entries.length ≤ maxBody
  | .polw terms => 1 + 2 * terms.length ≤ maxBody
  | .saveCompletion _ differs => differs.all fun d => d.1 < imageLength
  | .frameRejected _ frame => frame.body.length ≤ maxBody
  | .restart _ _ _ _ saveWrites => saveWrites ≤ saveWriteCount
  | .wdrw _ | .retr _ | .nopn | .ncls | .read _ | .ftag _ | .lcus _ _ | .lsta _ _ | .lpkt _ _ | .pkts _ | .ntot
  | .stat | .wndw _ | .jamc _ _ | .home _ | .ackl _ | .pcap _ _ | .rnga | .genr | .tolw _ _ | .timw _ | .timwRead
  | .time _ | .save | .wipe | .cred _ | .prtv _ | .notg _ | .pcls | .frameGap _ | .replyEnd _ | .resetHold
  | .drawerOpened | .drawerShut _ _ | .drawerTimerExpiry | .tagReadComplete _ _ | .drawerReadTaken
  | .tagWindowExpiry | .scaleReading _ _ | .weighTimerExpiry | .routeDecision | .jobStart | .jobCompletion
  | .carouselServe | .settleExpiry | .encoderStep _ | .arrivalTimerExpiry | .referenceMark | .homingTimerExpiry
  | .hatchShutSensor _ | .unopenedTimerExpiry | .tipCompletion | .tipTimerExpiry | .hatchScan _ | .lampExpiry
  | .graceExpiry _ | .handoverExpiry _ | .pairingExpiry | .idleExpiry | .timeLockContact _ | .clockTick
  | .lineByteReceived _ _ => true

end Sys2Proof
end

