-- ==== Sys2Proof/Decode.lean ====
section
/-! DEFINITION. The request catalogue (R168): the names, the body of each request read field by field with the body size
test of R162, and the encoder that writes a request's body. No row of spec/opcode_table.json gives bits, so
`decodeTableWord` answers none for every word. -/

namespace Sys2Proof

open Sys2Proof.Machine (be beNat field)

/-- The request names of the catalogue (R168). -/
inductive ReqName where
  | advs | wdrw | retr | nopn | ncls | read | ftag | lcus | lsta | lpkt | pkts | ntot | stat | clrs | cnfm | wndw | jamc
  | home | ackl | pcap | rngw | rnga | genr | denw | tolw | rost | polw | timw | time | save | wipe | cred | prtv | notg
  | pcls
deriving DecidableEq, Repr

/-- The four ASCII capitals of a name, the first in the high byte (R159). -/
def ReqName.code : ReqName → BitVec 32
  | .advs => 0x41445653#32
  | .wdrw => 0x57445257#32
  | .retr => 0x52455452#32
  | .nopn => 0x4E4F504E#32
  | .ncls => 0x4E434C53#32
  | .read => 0x52454144#32
  | .ftag => 0x46544147#32
  | .lcus => 0x4C435553#32
  | .lsta => 0x4C535441#32
  | .lpkt => 0x4C504B54#32
  | .pkts => 0x504B5453#32
  | .ntot => 0x4E544F54#32
  | .stat => 0x53544154#32
  | .clrs => 0x434C5253#32
  | .cnfm => 0x434E464D#32
  | .wndw => 0x574E4457#32
  | .jamc => 0x4A414D43#32
  | .home => 0x484F4D45#32
  | .ackl => 0x41434B4C#32
  | .pcap => 0x50434150#32
  | .rngw => 0x524E4757#32
  | .rnga => 0x524E4741#32
  | .genr => 0x47454E52#32
  | .denw => 0x44454E57#32
  | .tolw => 0x544F4C57#32
  | .rost => 0x524F5354#32
  | .polw => 0x504F4C57#32
  | .timw => 0x54494D57#32
  | .time => 0x54494D45#32
  | .save => 0x53415645#32
  | .wipe => 0x57495045#32
  | .cred => 0x43524544#32
  | .prtv => 0x50525456#32
  | .notg => 0x4E4F5447#32
  | .pcls => 0x50434C53#32

/-- The line a request stands on in the catalogue (R168). -/
def ReqName.line : ReqName → Line
  | .cred | .prtv | .notg | .pcls => .panel
  | .advs | .wdrw | .retr | .nopn | .ncls | .read | .ftag | .lcus | .lsta | .lpkt | .pkts | .ntot | .stat | .clrs
  | .cnfm | .wndw | .jamc | .home | .ackl | .pcap | .rngw | .rnga | .genr | .denw | .tolw | .rost | .polw | .timw
  | .time | .save | .wipe => .branch

/-- Every request of the catalogue, in its order (R168). -/
def ReqName.all : List ReqName :=
  [.advs, .wdrw, .retr, .nopn, .ncls, .read, .ftag, .lcus, .lsta, .lpkt, .pkts, .ntot, .stat, .clrs, .cnfm, .wndw,
   .jamc, .home, .ackl, .pcap, .rngw, .rnga, .genr, .denw, .tolw, .rost, .polw, .timw, .time, .save, .wipe, .cred,
   .prtv, .notg, .pcls]

/-- The request of a name on a line; names are compared exactly (R162). -/
def ReqName.ofCode (l : Line) (name : BitVec 32) : Option ReqName :=
  ReqName.all.find? fun r => r.code == name && r.line == l

/-- `n` bytes of a body from place `a` on. -/
def slice (body : List Byte) (a n : Nat) : List Byte := (body.drop a).take n

/-- The one-byte field at a place. -/
def byteAt (body : List Byte) (a : Nat) : BitVec 8 := (body[a]?).getD 0#8

/-- `n` items of `k` bytes each. -/
def chunks (k : Nat) : Nat → List Byte → List (List Byte)
  | 0, _ => []
  | n + 1, body => body.take k :: chunks k n (body.drop k)

/-- The items that a count field at place `a` announces, each of `k` bytes, if the body is exactly as long as they call
for (R162, R168). -/
def counted (body : List Byte) (a k : Nat) : Option (List (List Byte)) :=
  if body.length = a + 1 + k * (byteAt body a).toNat then
    some (chunks k (byteAt body a).toNat (body.drop (a + 1)))
  else none

/-- A body of exactly this size (R162). -/
def sized (body : List Byte) (n : Nat) (i : Instr) : Option Instr := if body.length = n then some i else none

/-- The fields of a range entry from place `a` of a body on (R168). -/
def rangeFieldAt (body : List Byte) (a : Nat) (group : List (BitVec 8)) : RangeField where
  enabled := byteAt body a
  base := field 32 (slice body (a + 1) 4)
  prefixLength := byteAt body (a + 5)
  closed := byteAt body (a + 6)
  audit := byteAt body (a + 7)
  tolSet := byteAt body (a + 8)
  cap := byteAt body (a + 9)
  group := group

/-- The six values of a tolerance set from place `a` on (R168). -/
def tolFieldAt (body : List Byte) (a : Nat) : TolField where
  tare := field 24 (slice body a 3)
  tareSpread := field 24 (slice body (a + 3) 3)
  lower := field 24 (slice body (a + 6) 3)
  upper := field 24 (slice body (a + 9) 3)
  plausMin := field 24 (slice body (a + 12) 3)
  plausMax := field 24 (slice body (a + 15) 3)

/-- The 15 bytes of TIMW's written form from place `a` on (R180). -/
def timerFieldAt (body : List Byte) (a : Nat) : TimerField where
  grace := field 16 (slice body a 2)
  handover := byteAt body (a + 2)
  pairing := field 16 (slice body (a + 3) 2)
  idle := field 16 (slice body (a + 5) 2)
  step := field 16 (slice body (a + 7) 2)
  settle := field 16 (slice body (a + 9) 2)
  prePosition := byteAt body (a + 11)
  weakOption := byteAt body (a + 12)
  enables := field 16 (slice body (a + 13) 2)

/-- A breakdown line of three bytes (R168). -/
def lineField (c : List Byte) : LineField := ⟨byteAt c 0, field 16 (slice c 1 2)⟩

/-- A denomination entry of six bytes (R168). -/
def denomField (c : List Byte) : DenomField := ⟨field 24 (slice c 0 3), field 16 (slice c 3 2), byteAt c 5⟩

/-- A roster entry of four bytes (R168). -/
def staffField (c : List Byte) : StaffField := ⟨field 24 (slice c 0 3), byteAt c 3⟩

/-- A policy term of two bytes (R168). -/
def termField (c : List Byte) : TermField := ⟨byteAt c 0, byteAt c 1⟩

/-- The body of a request read by the catalogue: none where its size is not the one called for (R162, R168, R180). -/
def ReqName.parse (r : ReqName) (body : List Byte) : Option Instr :=
  match r with
  | .advs => (counted body 12 3).map fun cs =>
      .advs (field 32 (slice body 0 4)) (field 24 (slice body 4 3)) (field 40 (slice body 7 5)) (cs.map lineField)
  | .wdrw => sized body 4 (.wdrw (field 32 body))
  | .retr => sized body 4 (.retr (field 32 body))
  | .nopn => sized body 0 .nopn
  | .ncls => sized body 0 .ncls
  | .read => sized body 2 (.read (field 16 body))
  | .ftag => sized body 4 (.ftag (field 32 body))
  | .lcus => sized body 5 (.lcus (field 24 (slice body 0 3)) (field 16 (slice body 3 2)))
  | .lsta => sized body 3 (.lsta (byteAt body 0) (field 16 (slice body 1 2)))
  | .lpkt => sized body 2 (.lpkt (byteAt body 0) (byteAt body 1))
  | .pkts => sized body 1 (.pkts (byteAt body 0))
  | .ntot => sized body 0 .ntot
  | .stat => sized body 0 .stat
  | .clrs => (counted body 0 1).map fun cs => .clrs (cs.map fun c => byteAt c 0)
  | .cnfm => (counted body 7 3).map fun cs =>
      .cnfm (field 16 (slice body 0 2)) (field 40 (slice body 2 5)) (cs.map fun c => field 24 c)
  | .wndw => sized body 1 (.wndw (byteAt body 0))
  | .jamc => sized body 4 (.jamc (field 24 (slice body 0 3)) (byteAt body 3))
  | .home => sized body 3 (.home (field 24 body))
  | .ackl => sized body 3 (.ackl (field 24 body))
  | .pcap => sized body 2 (.pcap (byteAt body 0) (byteAt body 1))
  | .rngw => (counted body 11 1).map fun cs =>
      .rngw (byteAt body 0) (rangeFieldAt body 1 (cs.map fun c => byteAt c 0))
  | .rnga => sized body 0 .rnga
  | .genr => sized body 0 .genr
  | .denw => (counted body 1 6).map fun cs => .denw (byteAt body 0) (cs.map denomField)
  | .tolw => sized body 19 (.tolw (byteAt body 0) (tolFieldAt body 1))
  | .rost => (counted body 0 4).map fun cs => .rost (cs.map staffField)
  | .polw => (counted body 0 2).map fun cs => .polw (cs.map termField)
  | .timw => if body.isEmpty then some .timwRead else sized body 15 (.timw (timerFieldAt body 0))
  | .time => sized body 3 (.time (field 24 body))
  | .save => sized body 0 .save
  | .wipe => sized body 0 .wipe
  | .cred => sized body 3 (.cred (field 24 body))
  | .prtv => sized body 1 (.prtv (byteAt body 0))
  | .notg => sized body 2 (.notg (field 16 body))
  | .pcls => sized body 0 .pcls

/-- What a name and body on a line call for (R162). -/
inductive Parsed where
  /-- The name is not a request of that line: reply UNKNOWN. -/
  | unknownName
  /-- The body size is not the one called for: reply BAD_VALUE. -/
  | wrongSize
  /-- The request is taken. -/
  | request (i : Instr)
deriving DecidableEq, Repr

/-- The third to fifth rows of R162, total on any name and body. -/
def decodeRequest (l : Line) (name : BitVec 32) (body : List Byte) : Parsed :=
  match ReqName.ofCode l name with
  | none => .unknownName
  | some r =>
    match r.parse body with
    | none => .wrongSize
    | some i => .request i

/-! ## The encoder -/

/-- A count field and its items. -/
def countBody (n : Nat) (items : List (List Byte)) : List Byte := BitVec.ofNat 8 n :: items.flatten

/-- The bytes of a bit field, big-endian (R165). -/
def bytesOf (n : Nat) {w : Nat} (x : BitVec w) : List Byte := be n x.toNat

/-- The written body of TIMW (R180). -/
def TimerField.body (f : TimerField) : List Byte :=
  bytesOf 2 f.grace ++ bytesOf 1 f.handover ++ bytesOf 2 f.pairing ++ bytesOf 2 f.idle ++ bytesOf 2 f.step ++
  bytesOf 2 f.settle ++ [f.prePosition, f.weakOption] ++ bytesOf 2 f.enables

/-- The body of TOLW after the set number (R168). -/
def TolField.body (f : TolField) : List Byte :=
  bytesOf 3 f.tare ++ bytesOf 3 f.tareSpread ++ bytesOf 3 f.lower ++ bytesOf 3 f.upper ++ bytesOf 3 f.plausMin ++
  bytesOf 3 f.plausMax

/-- The body of RNGW after the entry number (R168). -/
def RangeField.body (f : RangeField) : List Byte :=
  [f.enabled] ++ bytesOf 4 f.base ++ [f.prefixLength, f.closed, f.audit, f.tolSet, f.cap] ++
  countBody f.group.length (f.group.map fun p => [p])

/-- The name and body of a request (R168, R180); none for an event, which no frame carries. -/
def Instr.encode : Instr → Option (ReqName × List Byte)
  | .advs tag customer declared lines => some (.advs, bytesOf 4 tag ++ bytesOf 3 customer ++ bytesOf 5 declared ++
      countBody lines.length (lines.map fun l => l.denom :: bytesOf 2 l.count))
  | .wdrw tag => some (.wdrw, bytesOf 4 tag)
  | .retr tag => some (.retr, bytesOf 4 tag)
  | .nopn => some (.nopn, [])
  | .ncls => some (.ncls, [])
  | .read receipt => some (.read, bytesOf 2 receipt)
  | .ftag tag => some (.ftag, bytesOf 4 tag)
  | .lcus customer start => some (.lcus, bytesOf 3 customer ++ bytesOf 2 start)
  | .lsta state start => some (.lsta, state :: bytesOf 2 start)
  | .lpkt pocket start => some (.lpkt, [pocket, start])
  | .pkts pocket => some (.pkts, [pocket])
  | .ntot => some (.ntot, [])
  | .stat => some (.stat, [])
  | .clrs codes => some (.clrs, countBody codes.length (codes.map fun c => [c]))
  | .cnfm receipt counted ids => some (.cnfm, bytesOf 2 receipt ++ bytesOf 5 counted ++
      countBody ids.length (ids.map (bytesOf 3)))
  | .wndw field => some (.wndw, [field])
  | .jamc id disposition => some (.jamc, bytesOf 3 id ++ [disposition])
  | .home id => some (.home, bytesOf 3 id)
  | .ackl id => some (.ackl, bytesOf 3 id)
  | .pcap pocket capacity => some (.pcap, [pocket, capacity])
  | .rngw entry field => some (.rngw, entry :: field.body)
  | .rnga => some (.rnga, [])
  | .genr => some (.genr, [])
  | .denw start entries => some (.denw, start :: countBody entries.length
      (entries.map fun d => bytesOf 3 d.face ++ bytesOf 2 d.mass ++ [d.spread]))
  | .tolw set field => some (.tolw, set :: field.body)
  | .rost entries => some (.rost, countBody entries.length (entries.map fun m => bytesOf 3 m.id ++ [m.role]))
  | .polw terms => some (.polw, countBody terms.length (terms.map fun t => [t.condition, t.invert]))
  | .timw field => some (.timw, field.body)
  | .timwRead => some (.timw, [])
  | .time seconds => some (.time, bytesOf 3 seconds)
  | .save => some (.save, [])
  | .wipe => some (.wipe, [])
  | .cred id => some (.cred, bytesOf 3 id)
  | .prtv pocket => some (.prtv, [pocket])
  | .notg receipt => some (.notg, bytesOf 2 receipt)
  | .pcls => some (.pcls, [])
  | .saveCompletion _ _ | .frameRejected _ _ | .frameGap _ | .replyEnd _ | .resetHold | .restart _ _ _ _ _
  | .drawerOpened | .drawerShut _ _ | .drawerTimerExpiry | .tagReadComplete _ _ | .drawerReadTaken
  | .tagWindowExpiry | .scaleReading _ _ | .weighTimerExpiry | .routeDecision | .jobStart | .jobCompletion
  | .carouselServe | .settleExpiry | .encoderStep _ | .arrivalTimerExpiry | .referenceMark | .homingTimerExpiry
  | .hatchShutSensor _ | .unopenedTimerExpiry | .tipCompletion | .tipTimerExpiry | .hatchScan _ | .lampExpiry
  | .graceExpiry _ | .handoverExpiry _ | .pairingExpiry | .idleExpiry | .timeLockContact _ | .clockTick
  | .lineByteReceived _ _ => none

/-! ## The opcode table's bits -/

/-- The command that a word spells by the table's bits: the table gives bits to no row, so no word spells one. -/
def decodeTableWord (_nbits _w : Nat) : Option Instr := none

end Sys2Proof
end

