-- ==== Sys2Proof/Config.lean ====
section
/-! DEFINITION. What the module fixes once: capacities, limits and the fixed intervals the chapters state, and the one
free value. -/

namespace Sys2Proof.Config

/-- The record slots of the custody register (R2). -/
def slots : Nat := 384

/-- The slots that ADVS cannot take (R2, R121). -/
def adviceReserve : Nat := 16

/-- The places of the WAU job queue (R52). -/
def jobPlaces : Nat := 6

/-- The release requests that may stand in the positioning queue (R83). -/
def releasePlaces : Nat := 3

/-- The units of pocket 0 held for a drop before its route decision (R74, R94). -/
def exceptionHold : Nat := 4

/-- The most units a pocket may hold (R71). -/
def maxCapacity : Nat := 24

/-- The limits of the night totals (R20). -/
def bagLimit : Nat := 65535
/-- The limit of the declared sum and of the mass sum of the night (R20). -/
def sumLimit : Nat := 999999999999

/-- The largest declared total and counted value (R119, R155). -/
def declaredLimit : Nat := 99999999999

/-- Full scale in tenths of a gram (00_scope.md, R104). -/
def fullScale : Nat := 200000

/-- The largest staff id (00_scope.md, R139). -/
def staffLimit : Nat := 999999

/-- Drawer timer (R99), in ms. -/
def drawerMs : Nat := 120000
/-- Tag window (R100), in ms. -/
def tagWindowMs : Nat := 2000
/-- Weigh timer (R104), in ms. -/
def weighMs : Nat := 3000
/-- Tip timer (R108), in ms. -/
def tipMs : Nat := 4000
/-- Unopened timer (R144), in ms. -/
def unopenedMs : Nat := 120000
/-- The repeat guard (R146), in ms. -/
def guardMs : Nat := 2000

/-- The steps of a homing search without the mark after which it has failed (R93). -/
def homingSteps : Nat := 42

/-- FREE VALUE. DESIGN CHOICE (log 12). The byte a SAVE puts into a place of the image that its count field does not
use (R177): the spec gives it no value. The first argument numbers the save, the second is the byte's place. -/
opaque unusedPlace : Nat → Nat → Byte

end Sys2Proof.Config
end

