-- ==== Sys2Proof/Machine/Operands.lean ====
section
/-! DEFINITION. The fields of requests, checked and clamped as their rules give, and the codes and layouts of replies
(R164 to R169). -/

namespace Sys2Proof.Machine

/-! ## Fields of requests -/

/-- A list of results, if all are present. -/
def allSome {α : Type} : List (Option α) → Option (List α)
  | [] => some []
  | .none :: _ => .none
  | some x :: rest => (allSome rest).map (x :: ·)

/-- "Clamped": replaced by the nearer end of the range (00_scope.md). -/
def clamp (lo hi x : Nat) : Nat := max lo (min hi x)

/-- A yes/no, on/off or set/clear field: 1 or 0 (R165). -/
def flagOf (b : BitVec 8) : Option Bool :=
  if b = 0#8 then some false else if b = 1#8 then some true else .none

/-- A pocket number 0 to 20. -/
def pocketOf (b : BitVec 8) : Option (Fin 21) :=
  if h : b.toNat < 21 then some ⟨b.toNat, h⟩ else .none

/-- A storage pocket, 1 to 20. -/
def storagePocketOf (b : BitVec 8) : Option (Fin 21) := (pocketOf b).filter (· ≠ 0)

/-- A denomination number 0 to 15. -/
def denomOf (b : BitVec 8) : Option (Fin 16) :=
  if h : b.toNat < 16 then some ⟨b.toNat, h⟩ else .none

/-- A range entry number 0 to 7. -/
def entryOf (b : BitVec 8) : Option (Fin 8) :=
  if h : b.toNat < 8 then some ⟨b.toNat, h⟩ else .none

/-- A tolerance set number 0 to 3. -/
def setOf (b : BitVec 8) : Option (Fin 4) :=
  if h : b.toNat < 4 then some ⟨b.toNat, h⟩ else .none

/-- A staff id, 1 to 999,999 (00_scope.md). -/
def staffIdOf (id : BitVec 24) : Option Nat :=
  if 1 ≤ id.toNat ∧ id.toNat ≤ Config.staffLimit then some id.toNat else .none

/-- The pockets of a group: 1 to 8 distinct storage pockets, in order (R32). -/
def groupOf (group : List (BitVec 8)) : Option (List (Fin 21)) :=
  if 1 ≤ group.length ∧ group.length ≤ 8 then
    (allSome (group.map storagePocketOf)).filter fun g => decide g.Nodup
  else .none

/-- The entry that RNGW stores: none where R32 refuses BAD_VALUE, the prefix length clamped to 8..32 (R33). -/
def rangeEntryOf (f : RangeField) : Option RangeEntry := do
  let enabled ← flagOf f.enabled
  let closed ← flagOf f.closed
  let audit ← flagOf f.audit
  let tolSet ← setOf f.tolSet
  let group ← groupOf f.group
  if f.cap.toNat ≤ 15 then
    some { enabled, base := f.base, prefixLength := clamp 8 32 f.prefixLength.toNat, closed, audit, group, tolSet
           cap := f.cap.toNat }
  else .none

/-- The denomination entry that DENW stores: none where R46 refuses it. -/
def denominationOf (f : DenomField) : Option Denomination :=
  if f.face.toNat ≤ 1000000 then some { face := f.face.toNat, mass := f.mass.toNat, spread := f.spread.toNat }
  else .none

/-- The tolerance set that TOLW stores, each value clamped to the top of its range (R50). -/
def toleranceOf (f : TolField) : ToleranceSet where
  tare := min 999999 f.tare.toNat
  tareSpread := min 99999 f.tareSpread.toNat
  lower := min 999999 f.lower.toNat
  upper := min 999999 f.upper.toNat
  plausMin := min 200000 f.plausMin.toNat
  plausMax := min 200000 f.plausMax.toNat

/-- A role code (R165). -/
def roleOf (b : BitVec 8) : Option Role :=
  if b = 1#8 then some .teller else if b = 2#8 then some .supervisor else .none

/-- One roster entry (R136). -/
def staffOf (f : StaffField) : Option Staff := do
  let id ← staffIdOf f.id
  let role ← roleOf f.role
  some { id, role }

/-- The roster that ROST stores: none where R136 refuses BAD_VALUE. -/
def rosterOf (entries : List StaffField) : Option (List Staff) :=
  if entries.length ≤ 16 then
    (allSome (entries.map staffOf)).filter fun r => decide (r.map (·.id)).Nodup
  else .none

/-- The conditions in the order of their codes 1 to 11 (R165). -/
def conditions : List Condition :=
  [.inside, .light, .heavy, .wrong, .unadvised, .lateAdvice, .slipSum, .overRange, .unsteady, .exception, .interrupted]

/-- The condition of a code 1 to 11 (R165). -/
def conditionOf (b : BitVec 8) : Option Condition := if b = 0#8 then .none else conditions[b.toNat - 1]?

/-- One policy term (R152). -/
def termOf (f : TermField) : Option PolicyTerm := do
  let condition ← conditionOf f.condition
  let invert ← flagOf f.invert
  some { condition, invert }

/-- The policy that POLW stores: none where R152 refuses BAD_VALUE. -/
def policyOf (terms : List TermField) : Option (List PolicyTerm) :=
  if terms.length ≤ 4 then allSome (terms.map termOf) else .none

/-- The timers, options and enables of R180. -/
structure TimerValues where
  grace : Nat
  handover : Nat
  pairing : Nat
  idle : Nat
  step : Nat
  settle : Nat
  prePosition : Bool
  weakOption : Bool
  enables : BitVec 16
deriving DecidableEq, Repr

/-- The defaults of R180. -/
def TimerValues.default : TimerValues where
  grace := 300
  handover := 30
  pairing := 60
  idle := 600
  step := 250
  settle := 400
  prePosition := false
  weakOption := true
  enables := 0xFFFF#16

/-- What TIMW stores, each interval clamped to its range: none where an option is neither 0 nor 1 (R180). -/
def timersOf (f : TimerField) : Option TimerValues := do
  let prePosition ← flagOf f.prePosition
  let weakOption ← flagOf f.weakOption
  some { grace := clamp 0 3600 f.grace.toNat, handover := clamp 1 240 f.handover.toNat
         pairing := clamp 10 300 f.pairing.toNat, idle := clamp 60 3600 f.idle.toNat
         step := clamp 50 1000 f.step.toNat, settle := clamp 0 2000 f.settle.toNat
         prePosition, weakOption, enables := f.enables }

/-- One line of an advice: a set denomination and a count of 1 to 9,999 (R119). -/
def lineOf (denoms : Vector Denomination 16) (f : LineField) : Option BreakdownLine := do
  let denom ← denomOf f.denom
  if 1 ≤ f.count.toNat ∧ f.count.toNat ≤ 9999 ∧ denoms[denom].face ≠ 0 then some { denom, count := f.count.toNat }
  else .none

/-- The advice an ADVS carries: none where R119 refuses BAD_VALUE. -/
def adviceOf (denoms : Vector Denomination 16) (tag : Tag) (customer : BitVec 24) (declared : BitVec 40)
    (lines : List LineField) : Option Advice :=
  if isTag tag ∧ 1 ≤ lines.length ∧ lines.length ≤ 8 ∧ declared.toNat ≤ Config.declaredLimit then
    ((allSome (lines.map (lineOf denoms))).filter fun ls => decide (ls.map (·.denom)).Nodup).map
      fun ls => { customer := customer.toNat, lines := ls, declared := declared.toNat }
  else .none

/-- The states in the order of their codes 1 to 7 (R166). -/
def recStates : List RecState := [.advised, .intake, .grace, .held, .staged, .overdue, .missing]

/-- The state of a code 1 to 7 (R23, R166). -/
def recStateOf (b : BitVec 8) : Option RecState := if b = 0#8 then .none else recStates[b.toNat - 1]?

/-! ## Status flags -/

/-- The place of a flag: its code less 1 (R170). -/
def StatusFlag.place : StatusFlag → Fin 16
  | .dropDone => 0 | .exceptionDrop => 1 | .graceExpired => 2 | .lateAdvice => 3 | .overdue => 4 | .pocketLast => 5
  | .pocketFull => 6 | .jam => 7 | .carouselFault => 8 | .chuteShut => 9 | .storeLost => 10 | .readerOverrun => 11
  | .wrongPocketScan => 12 | .drawerHeld => 13 | .settingsFault => 14 | .saveDone => 15

/-- The place of a flag code 1 to 16 (R173). -/
def flagPlaceOf (b : BitVec 8) : Option (Fin 16) :=
  if h : b.toNat - 1 < 16 then if b = 0#8 then .none else some ⟨b.toNat - 1, h⟩ else .none

/-! ## Codes of replies -/

/-- One byte. -/
def byte (n : Nat) : Byte := BitVec.ofNat 8 n

/-- Yes is sent as 1 and no as 0 (R165). -/
def yesNo (b : Bool) : Byte := if b then 1#8 else 0#8

/-- The outcome word in ASCII (R164). -/
def OutcomeWord.bytes : OutcomeWord → List Byte
  | .ok => [0x4F#8, 0x4B#8, 0x20#8, 0x20#8]
  | .late => [0x4C#8, 0x41#8, 0x54#8, 0x45#8]
  | .collide => [0x43#8, 0x4F#8, 0x4C#8, 0x4C#8]
  | .busy => [0x42#8, 0x55#8, 0x53#8, 0x59#8]
  | .full => [0x46#8, 0x55#8, 0x4C#8, 0x4C#8]
  | .notFound => [0x4E#8, 0x46#8, 0x4E#8, 0x44#8]
  | .badState => [0x42#8, 0x41#8, 0x44#8, 0x53#8]
  | .badValue => [0x42#8, 0x41#8, 0x44#8, 0x56#8]
  | .deny => [0x44#8, 0x45#8, 0x4E#8, 0x59#8]
  | .second => [0x53#8, 0x43#8, 0x4E#8, 0x44#8]
  | .noRoom => [0x52#8, 0x4F#8, 0x4F#8, 0x4D#8]
  | .same => [0x53#8, 0x41#8, 0x4D#8, 0x45#8]
  | .none => [0x4E#8, 0x4F#8, 0x4E#8, 0x45#8]
  | .unknown => [0x55#8, 0x4E#8, 0x4B#8, 0x4E#8]

/-- R166, byte 8. -/
def RecState.code : RecState → Byte
  | .advised => 1#8 | .intake => 2#8 | .grace => 3#8 | .held => 4#8 | .staged => 5#8 | .overdue => 6#8 | .missing => 7#8

/-- R166, byte 9. -/
def AdviceMark.code : AdviceMark → Byte
  | .none => 0#8 | .before => 1#8 | .inGrace => 2#8 | .late => 3#8

/-- R166, byte 18. -/
def RangeRef.code : RangeRef → Byte
  | .entry n => byte n.val
  | .general => 8#8

/-- R166, byte 20. -/
def Location.code : Location → Byte
  | .pocket p => byte p.val
  | .drawer => 21#8
  | .out => 22#8
  | .absent => 255#8

/-- R166, byte 22. -/
def Cause.code : Cause → Byte
  | .noTag => 1#8 | .twoTags => 2#8 | .dupTag => 3#8 | .noRange => 4#8 | .rangeClosed => 5#8 | .cap => 6#8
  | .noRoom => 7#8 | .audit => 8#8

/-- R166, byte 29. -/
def Verdict.code : Verdict → Byte
  | .pending => 1#8 | .inside => 2#8 | .light => 3#8 | .heavy => 4#8 | .wrong => 5#8

/-- R165. -/
def Role.code : Role → Byte
  | .teller => 1#8 | .supervisor => 2#8

/-- R165. -/
def Condition.code : Condition → Byte
  | .inside => 1#8 | .light => 2#8 | .heavy => 3#8 | .wrong => 4#8 | .unadvised => 5#8 | .lateAdvice => 6#8
  | .slipSum => 7#8 | .overRange => 8#8 | .unsteady => 9#8 | .exception => 10#8 | .interrupted => 11#8

/-- R165. -/
def Session.code : Session → Byte
  | .closed => 1#8 | .pairing _ _ => 2#8 | .opened _ => 3#8

/-- R165. -/
def Drum.code : Drum → Byte
  | .idle => 1#8 | .settle _ => 2#8 | .moving _ _ => 3#8 | .homing _ => 4#8 | .fault => 5#8

/-- R180. -/
def LoadOutcome.code : LoadOutcome → Byte
  | .defaults => 1#8 | .blank => 2#8 | .bad => 3#8 | .loaded => 4#8

/-- The pocket classes (R72). -/
inductive PocketClass where
  | outOfService | full | last | opened
deriving DecidableEq, Repr

/-- R165. -/
def PocketClass.code : PocketClass → Byte
  | .opened => 1#8 | .last => 2#8 | .full => 3#8 | .outOfService => 4#8

/-! ## Layouts of replies -/

/-- A code, or the marker of an absent field (R166). -/
def codeOr {α : Type} (code : α → Byte) (absent : Byte) : Option α → Byte
  | .none => absent
  | some x => code x

/-- A number of `n` bytes, or the marker of an absent field (R166). -/
def beOr (n absent : Nat) : Option Nat → List Byte
  | .none => be n absent
  | some x => be n x

/-- The record summary (R166). -/
def Record.summary (r : Record) : List Byte :=
  be 2 r.receipt ++ be 4 ((r.tag.map BitVec.toNat).getD 0) ++
  [yesNo r.claims, r.state.code, r.mark.code] ++
  be 3 ((r.advice.map Advice.customer).getD 0) ++ be 5 ((r.advice.map Advice.declared).getD 0) ++
  [codeOr RangeRef.code 255#8 r.range, byte r.tolSet.val, r.location.code,
   codeOr (fun p : Fin 21 => byte p.val) 0#8 r.nominal, codeOr Cause.code 0#8 r.cause, codeOr byte 0#8 r.size] ++
  beOr 3 0xFFFFFF r.mass ++
  [yesNo r.overRange, yesNo r.unsteady, codeOr Verdict.code 0#8 r.verdict, yesNo r.deviation.isSome] ++
  beInt 2 (r.deviation.getD 0) ++ beOr 5 0xFFFFFFFFFF r.valueSum ++
  [yesNo r.slipMismatch, yesNo r.countRequired] ++ beOr 3 0xFFFFFF r.dropTime ++
  [yesNo r.interrupted, yesNo r.jammed] ++
  (let lines := (r.advice.map Advice.lines).getD []
   byte lines.length :: lines.flatMap fun l => byte l.denom.val :: be 2 l.count)

/-- The retirement summary of CNFM: the record summary, the counted value, and the difference, which is absent when no
advice is attached (R156, R166). -/
def Record.retirement (r : Record) (counted : Nat) : List Byte :=
  let difference : Int := (r.advice.map fun a => (counted : Int) - a.declared).getD 0
  r.summary ++ be 5 counted ++ yesNo r.advice.isSome :: beInt 5 difference

/-- A list reply: the entries returned, the "more" mark and the resume field (R167). -/
def listReply (entries : List Nat) (resume : Option Nat) : List Byte :=
  byte entries.length :: (entries.flatMap (be 2) ++ yesNo resume.isSome :: be 2 (resume.getD 0))

/-- A range entry in the form of RNGW's body (R33, R168). -/
def RangeEntry.bytes (e : RangeEntry) : List Byte :=
  yesNo e.enabled :: (be 4 e.base.toNat ++
    [byte e.prefixLength, yesNo e.closed, yesNo e.audit, byte e.tolSet.val, byte e.cap, byte e.group.length] ++
    e.group.map fun p => byte p.val)

/-- A denomination entry in the form of DENW's body (R47, R168). -/
def Denomination.bytes (d : Denomination) : List Byte := be 3 d.face ++ be 2 d.mass ++ [byte d.spread]

/-- A tolerance set in the form of TOLW's body (R50, R168). -/
def ToleranceSet.bytes (t : ToleranceSet) : List Byte :=
  be 3 t.tare ++ be 3 t.tareSpread ++ be 3 t.lower ++ be 3 t.upper ++ be 3 t.plausMin ++ be 3 t.plausMax

/-- A roster entry in the form of ROST's body (R136, R168). -/
def Staff.bytes (m : Staff) : List Byte := be 3 m.id ++ [m.role.code]

/-- A policy term in the form of POLW's body (R152, R168). -/
def PolicyTerm.bytes (t : PolicyTerm) : List Byte := [t.condition.code, yesNo t.invert]

/-- The timers and options in the form of TIMW's body, less the enables (R180). -/
def TimerValues.bytes (t : TimerValues) : List Byte :=
  be 2 t.grace ++ be 1 t.handover ++ be 2 t.pairing ++ be 2 t.idle ++ be 2 t.step ++ be 2 t.settle ++
  [yesNo t.prePosition, yesNo t.weakOption]

end Sys2Proof.Machine
end

