-- ==== Sys2Proof/Machine/Flags.lean ====
section
/-! DEFINITION. The status flags, their raise counts and the attention output (R171 to R174). -/

namespace Sys2Proof.Machine

/-- The attention output is asserted while a flag is set whose enable is on (R174). -/
def attentionOf (flags : Vector FlagCell 16) (enables : BitVec 16) : Bool :=
  (List.finRange 16).any fun i => flags[i].set && enables.getLsbD i.val

/-- A raise sets the flag and adds one to its count, which stays at 255 (R171). -/
def FlagCell.raise (c : FlagCell) : FlagCell := { set := true, count := min 255 (c.count + 1) }

/-- The flags written, and the attention output worked out again in the same event (R174). -/
def State.withFlags (s : State) (flags : Vector FlagCell 16) : State :=
  { s with ls := { s.ls with flags, attention := attentionOf flags s.ls.enables } }

/-- A block raises a flag (R171). -/
def State.raise (s : State) (f : StatusFlag) : State :=
  s.withFlags (s.ls.flags.set f.place s.ls.flags[f.place].raise)

/-- A flag raised where its cause stands. -/
def State.raiseWhen (s : State) (cause : Bool) (f : StatusFlag) : State := if cause then s.raise f else s

/-- The flags named are cleared, each with its count (R171, R173). -/
def clearFlags (flags : Vector FlagCell 16) (places : List (Fin 16)) : Vector FlagCell 16 :=
  places.foldl (fun fs (i : Fin 16) => fs.set i.val {} i.isLt) flags

/-- The places of the flags that stand set, in ascending code order (R172). -/
def setPlaces (flags : Vector FlagCell 16) : List (Fin 16) := (List.finRange 16).filter fun i => flags[i].set

/-- The answer of STAT and CLRS: OK when a flag is set and NONE otherwise, with the clock, the attention output and
each set flag's code and raise count (R172, R173). -/
def State.statusAnswer (s : State) : Answer where
  word := if (setPlaces s.ls.flags).isEmpty then .none else .ok
  data := yesNo s.ls.clock.isSome :: (be 3 (s.ls.clock.getD 0) ++
    [yesNo s.ls.attention, byte (setPlaces s.ls.flags).length] ++
    (setPlaces s.ls.flags).flatMap fun i => [byte (i.val + 1), byte s.ls.flags[i].count])

end Sys2Proof.Machine
end

