-- ==== Sys2Proof/Machine/Memory.lean ====
section
/-! DEFINITION. The serial EEPROM (R177): cells by strictly rising address, none of them equal to FF hex, which is what
an unlisted byte reads as, since an EEPROM that has never been written reads FF hex in every byte. -/

namespace Sys2Proof.Machine

/-- The contents of the EEPROM. -/
abbrev Memory := List Host.Cell

/-- What a byte that nothing has written reads as (R177). -/
def Memory.blank : Byte := 0xFF#8

/-- The 8 KiB of the part (00_scope.md, R177). -/
def Memory.size : Nat := 8192

/-- One byte read. -/
def Memory.read : Memory → Nat → Byte
  | [], _ => Memory.blank
  | (c, x) :: rest, a => if c = a then x else Memory.read rest a

/-- A cell put before the rest, unless it reads as an unlisted byte does. -/
def Memory.cell (a : Nat) (b : Byte) (rest : Memory) : Memory := if b = Memory.blank then rest else (a, b) :: rest

/-- One byte written; writing FF hex leaves no cell. -/
def Memory.write : Memory → Nat → Byte → Memory
  | [], a, b => Memory.cell a b []
  | (c, x) :: rest, a, b =>
    if a < c then Memory.cell a b ((c, x) :: rest)
    else if a = c then Memory.cell a b rest
    else (c, x) :: Memory.write rest a b

/-- Bytes written one after the other. -/
def Memory.writeAll (m : Memory) (writes : List (Nat × Byte)) : Memory :=
  writes.foldl (fun m w => m.write w.1 w.2) m

/-- `n` bytes read from an address on. -/
def Memory.readMany (m : Memory) (a n : Nat) : List Byte := (List.range n).map fun i => m.read (a + i)

/-- The canonical form: addresses strictly rising and inside the part, and no cell reading as an unlisted byte. -/
def Memory.wf : Memory → Bool
  | [] => true
  | (a, b) :: rest =>
    decide (a < Memory.size) && b != Memory.blank && rest.all (fun c => decide (a < c.1)) && Memory.wf rest

end Sys2Proof.Machine
end

