-- ==== Sys2Proof/Machine/Ops.lean ====
section
/-! DEFINITION. The operations the commands share over the custody register, the pockets and the reply of a line. -/

namespace Sys2Proof.Machine

/-- What a meaning answers. -/
abbrev Result := Host.Outcome State Fault Refusal

/-! ## Commands and replies -/

/-- While RESET_N is held the module takes no event but its restart (R183, log 7). -/
def whenRunning (s : State) (k : State → Result) : Result := if s.resetHeld then .next s else k s

/-- The state of one line. -/
def State.line (s : State) : Line → LineState
  | .branch => s.ls.branch
  | .panel => s.ls.panel

/-- One line written. -/
def State.setLine (s : State) (l : Line) (x : LineState) : State :=
  match l with
  | .branch => { s with ls := { s.ls with branch := x } }
  | .panel => { s with ls := { s.ls with panel := x } }

/-- The reply of a line is under way: the receiver of that line takes no bytes (R163). -/
def State.replying (s : State) (l : Line) : Bool := (s.line l).reply.isSome

/-- The module's address on a line: the latched strap on the branch link, where 0 takes no frame, and 1 on the panel line
(R158). -/
def State.address (s : State) : Line → Option Byte
  | .branch => if s.ss.straps.address = 0#5 then .none else some (s.ss.straps.address.setWidth 8)
  | .panel => some 1#8

/-- A request can be taken on a line: its last reply has been sent (R163), and the module has an address there (R158). -/
def State.listens (s : State) (l : Line) : Bool := !s.replying l && (s.address l).isSome

/-- A reply begins; the receiver is in HUNT when it ends (R163). -/
def State.answer (s : State) (l : Line) (name : BitVec 32) (a : Answer) : State :=
  s.setLine l { receiver := .hunt, reply := some { name, answer := a } }

/-- A request is taken on a line: its owner acts and answers in that event, and the reply carries the request's name
(R163, R164). While the reply before it is being sent the line takes no request, nor does a branch link without an
address, and the request is lost (R158, R163, log 6). -/
def takeRequest (s : State) (l : Line) (name : BitVec 32) (owner : State → State × Answer) : Result :=
  whenRunning s fun s =>
    if s.listens l then .next ((owner s).1.answer l name (owner s).2) else .next s

/-- A refusal carries the outcome word alone (R164), and nothing changes. -/
def refuse (s : State) (w : OutcomeWord) : State × Answer := (s, { word := w })

/-- A request taken, with its reply data. -/
def ok (s : State) (data : List Byte := []) : State × Answer := (s, { word := .ok, data })

/-- An event that is not a request. -/
def takeEvent (s : State) (effect : State → State) : Result := whenRunning s fun s => .next (effect s)

/-- The pins written. -/
def State.setPins (s : State) (x : Levels) : State := { s with pins := x }

/-! ## Records -/

/-- The free slot count (R2). -/
def State.freeSlots (s : State) : Nat := Config.slots - s.cr.records.length

/-- The record that holds a receipt (R3). -/
def findReceipt (records : List Record) (n : Nat) : Option Record := records.find? fun r => r.receipt == n

/-- The record that holds a receipt. -/
def State.record (s : State) (n : Nat) : Option Record := findReceipt s.cr.records n

/-- The receipt the tag index gives for a tag (R14). -/
def State.indexed (s : State) (t : Tag) : Option Nat := s.cr.tagIndex.lookup t

/-- The record that claims a tag (R14). -/
def State.claimant (s : State) (t : Tag) : Option Record := (s.indexed t).bind s.record

/-- The record in INTAKE; there is at most one (R4). -/
def State.intakeRecord (s : State) : Option Record := s.cr.records.find? fun r => r.state == .intake

/-- The custody register written. -/
def State.setRecords (s : State) (records : List Record) : State := { s with cr := { s.cr with records } }

/-- Every record with this receipt changed. -/
def updateReceipt (records : List Record) (n : Nat) (f : Record → Record) : List Record :=
  records.map fun r => if r.receipt = n then f r else r

/-- The record with this receipt changed. -/
def State.update (s : State) (n : Nat) (f : Record → Record) : State := s.setRecords (updateReceipt s.cr.records n f)

/-- A record put in its place in ascending receipt order. -/
def insertRecord (r : Record) : List Record → List Record
  | [] => [r]
  | x :: rest => if r.receipt < x.receipt then r :: x :: rest else x :: insertRecord r rest

/-- An entry put in its place in ascending tag order (R14). -/
def insertTag (t : Tag) (n : Nat) : List (Tag × Nat) → List (Tag × Nat)
  | [] => [(t, n)]
  | x :: rest => if t.toNat < x.1.toNat then (t, n) :: x :: rest else x :: insertTag t n rest

/-- The receipt after this one, going from 65,535 to 1 (R3). -/
def nextReceipt (n : Nat) : Nat := if 65535 ≤ n then 1 else n + 1

/-- The first receipt from `n` on that no record holds, trying at most as many held ones as the fuel says (R3). -/
def searchReceipt (records : List Record) : Nat → Nat → Nat
  | 0, n => n
  | fuel + 1, n => if (findReceipt records n).isSome then searchReceipt records fuel (nextReceipt n) else n

/-- The receipt the next record takes: among as many receipts as there are records and one more, one is free (R3). -/
def State.freshReceipt (s : State) : Nat := searchReceipt s.cr.records s.cr.records.length s.cr.receiptCounter

/-- A record is created: it takes a fresh receipt, the counter moves past it, and a claiming record enters the tag index
(R2, R3, R14). -/
def State.create (s : State) (make : Nat → Record) : State :=
  let n := s.freshReceipt
  let r := make n
  { s with cr := { s.cr with
      records := insertRecord r s.cr.records
      receiptCounter := nextReceipt n
      tagIndex := match r.claims, r.tag with
        | true, some t => insertTag t n s.cr.tagIndex
        | _, _ => s.cr.tagIndex } }

/-- The release controller stops a record's handover timer (R12, R153). -/
def State.stopHandover (s : State) (n : Nat) : State :=
  { s with rc := { s.rc with handoverTimers := s.rc.handoverTimers.filter fun h => h.1 != n } }

/-- A timer put in its place in ascending receipt order. -/
def insertTimer (n minutes : Nat) : List (Nat × Nat) → List (Nat × Nat)
  | [] => [(n, minutes)]
  | x :: rest => if n < x.1 then (n, minutes) :: x :: rest else x :: insertTimer n minutes rest

/-- The release controller starts a record's handover timer at the full interval in force (R153). -/
def State.startHandover (s : State) (n : Nat) : State :=
  let s := s.stopHandover n
  { s with rc := { s.rc with handoverTimers := insertTimer n s.rc.handoverInterval s.rc.handoverTimers } }

/-- A record is removed: its slot, its tag index entry and its receipt are free, and its timers stop (R12). -/
def State.remove (s : State) (n : Nat) : State :=
  let s := s.stopHandover n
  { s with cr := { s.cr with
      records := s.cr.records.filter fun r => r.receipt != n
      tagIndex := s.cr.tagIndex.filter fun e => e.2 != n } }

/-- The customer bag count, leaving out the record with receipt `self` (R18). -/
def customerBags (records : List Record) (customer self : Nat) : Nat :=
  records.countP fun r =>
    r.receipt != self && decide (r.advice.map Advice.customer = some customer) &&
      (r.state == .intake || r.state == .held || r.state == .staged || r.state == .overdue)

/-! ## Night totals and pockets -/

/-- Saturated (R20). -/
def saturate (limit x : Nat) : Nat := min limit x

/-- The declared total of a record, 0 where no advice is attached (R20, R76). -/
def Record.declaredTotal (r : Record) : Nat := (r.advice.map Advice.declared).getD 0

/-- A bag is counted in the night totals at its placement into a pocket (R20). -/
def NightTotals.count (t : NightTotals) (r : Record) (p : Fin 21) : NightTotals where
  bags := saturate Config.bagLimit (t.bags + 1)
  exceptions := if p = 0 then saturate Config.bagLimit (t.exceptions + 1) else t.exceptions
  declared := saturate Config.sumLimit (t.declared + r.declaredTotal)
  mass := saturate Config.sumLimit (t.mass + r.mass.getD 0)

/-- The units held in a pocket: those of the one hold, where it stands there (R74). -/
def Carousel.heldUnits (c : Carousel) (p : Fin 21) : Nat :=
  match c.hold with
  | .none => 0
  | some h => if h.pocket = p then h.units else 0

/-- The free units: capacity less used less held units, or 0 (R72). -/
def Carousel.freeUnits (c : Carousel) (p : Fin 21) : Nat :=
  c.pockets[p].capacity - (c.pockets[p].used + c.heldUnits p)

/-- The class of a pocket: the first row of R72 that holds. -/
def Carousel.classOf (c : Carousel) (p : Fin 21) : PocketClass :=
  if c.pockets[p].capacity = 0 then .outOfService
  else if c.freeUnits p = 0 then .full
  else if c.freeUnits p ≤ 3 then .last
  else .opened

/-- The fit test; a bag without a size class is not tested (R73). -/
def Carousel.fits (c : Carousel) (p : Fin 21) : Option Nat → Bool
  | .none => true
  | some size => c.classOf p != .outOfService && decide (size ≤ c.freeUnits p)

/-- The carousel block written. -/
def State.setPocket (s : State) (p : Fin 21) (x : Pocket) : State :=
  { s with pcc := { s.pcc with pockets := s.pcc.pockets.set p x } }

/-- The hold written; at most one stands (R74). -/
def State.setHold (s : State) (h : Option Hold) : State := { s with pcc := { s.pcc with hold := h } }

/-- A record enters a pocket: the totals rise, and POCKET_LAST or POCKET_FULL is raised by the class that results
(R76). -/
def State.enterPocket (s : State) (p : Fin 21) (r : Record) : State :=
  let x := s.pcc.pockets[p]
  let s := s.setPocket p { x with used := x.used + r.size.getD 0, bags := x.bags + 1
                                  declared := x.declared + r.declaredTotal, mass := x.mass + r.mass.getD 0 }
  (s.raiseWhen (s.pcc.classOf p == .last) .pocketLast).raiseWhen (s.pcc.classOf p == .full) .pocketFull

/-- A record is staged from a pocket: the totals fall by its values (R77). -/
def State.leavePocket (s : State) (p : Fin 21) (r : Record) : State :=
  let x := s.pcc.pockets[p]
  s.setPocket p { x with used := x.used - r.size.getD 0, bags := x.bags - 1
                         declared := x.declared - r.declaredTotal, mass := x.mass - r.mass.getD 0 }

/-- A pocket list written. -/
def State.setList (s : State) (p : Fin 21) (l : List Nat) : State :=
  { s with cr := { s.cr with lists := s.cr.lists.set p l } }

/-- A receipt appended at the tail of a pocket list (R16). -/
def State.appendList (s : State) (p : Fin 21) (n : Nat) : State := s.setList p (s.cr.lists[p] ++ [n])

/-- A receipt taken out of a pocket list; the others keep their order (R10). -/
def State.dropFromList (s : State) (p : Fin 21) (n : Nat) : State :=
  s.setList p (s.cr.lists[p].filter fun m => m != n)

/-- The first receipt in a pocket's list whose record is HELD and passes the test (R17, R150). -/
def State.firstHeld (s : State) (p : Fin 21) (test : Record → Bool) : Option Record :=
  (s.cr.lists[p].filterMap s.record).find? fun r => r.state == .held && test r

/-! ## Placement, staging, return -/

/-- Whether a placed record goes to GRACE: it claims its tag, its mark is NONE, and the grace interval is above 0
(R7). -/
def Record.toGrace (r : Record) (graceInterval : Nat) : Bool := r.claims && r.mark == .none && decide (0 < graceInterval)

/-- A record placed into pocket p (R7). -/
def Record.placed (r : Record) (p : Fin 21) (graceInterval : Nat) (clock : Option Nat) : Record :=
  { r with location := .pocket p
           state := if r.toGrace graceInterval then .grace else .held
           grace := if r.toGrace graceInterval then some graceInterval else .none
           dropTime := clock }

/-- The INTAKE record is completed into pocket p, in one event with the pocket's and the night's totals and the flags
(R7, R8, R76). -/
def State.place (s : State) (r : Record) (p : Fin 21) : State :=
  let s := s.update r.receipt fun r => r.placed p s.cr.graceInterval s.ls.clock
  let s := s.appendList p r.receipt
  let s := { s with cr := { s.cr with totals := s.cr.totals.count r p } }
  let s := (s.raise .dropDone).raiseWhen (p == 0) .exceptionDrop
  s.enterPocket p r

/-- Whether a condition of the count policy holds of a record (R151). -/
def Condition.holds (c : Condition) (r : Record) : Bool :=
  match c with
  | .inside => r.verdict == some .inside
  | .light => r.verdict == some .light
  | .heavy => r.verdict == some .heavy
  | .wrong => r.verdict == some .wrong
  | .unadvised => r.mark == .none
  | .lateAdvice => r.mark == .late
  | .slipSum => r.slipMismatch
  | .overRange => r.overRange
  | .unsteady => r.unsteady
  | .exception => r.cause.isSome
  | .interrupted => r.interrupted

/-- Count required at a staging: the verdict is PENDING, or a term of the policy is true (R151). -/
def countRequired (policy : List PolicyTerm) (r : Record) : Bool :=
  r.verdict == some .pending || policy.any fun t => t.condition.holds r != t.invert

/-- A HELD record is staged from the open pocket q (R10, R77, R147), with its handover timer started (R153). -/
def State.stage (s : State) (r : Record) (q : Fin 21) : State :=
  let s := s.update r.receipt fun x =>
    { x with state := .staged, location := .out, countRequired := countRequired s.rc.policy r }
  ((s.dropFromList q r.receipt).leavePocket q r).startHandover r.receipt

/-- A STAGED or OVERDUE record is returned into the open pocket q (R11, R76, R148). -/
def State.giveBack (s : State) (r : Record) (q : Fin 21) : State :=
  let s := s.update r.receipt fun x => { x with state := .held, location := .pocket q, countRequired := false }
  ((s.appendList q r.receipt).enterPocket q r).stopHandover r.receipt

/-! ## The roster, the permit and the settings store -/

/-- The role of a staff id that stands in the roster (R135). -/
def State.role (s : State) (id : BitVec 24) : Option Role :=
  (s.rc.roster.find? fun m => m.id == id.toNat).map (·.role)

/-- The release permit (R137). -/
def State.permit (s : State) : Bool := s.rc.wndw && (!s.ss.straps.timeLockEnable || s.pins.timeLockClosed)

/-- The settings store is SAVING (R181). -/
def State.isSaving (s : State) : Bool := s.ss.saving.isSome

/-! ## Outputs -/

/-- The drawer lock follows from the phase (R94) and is at rest while RESET_N is held (R183). -/
def State.drawerLocked (s : State) : Bool := s.resetHeld || !(s.intake.phase == .ready || s.intake.phase == .loading)

/-- The tip actuator is driven in TIP (R108, R183). -/
def State.tipActuator (s : State) : Bool := !s.resetHeld && s.intake.phase == .tip

/-- The carousel drive is on in MOVING and in a homing search (R81, R93, R183). -/
def State.carouselDrive (s : State) : Bool :=
  !s.resetHeld && match s.pcc.drum with
    | .moving _ _ | .homing (some _) => true
    | .idle | .settle _ | .homing .none | .fault => false

/-- The hatch lock (R144, R183). -/
def State.hatchLocked (s : State) : Bool := s.resetHeld || s.rc.hatch == .locked

/-- The body of a reply: the outcome word in ASCII, then the reply data (R159, R164). -/
def Answer.body (a : Answer) : List Byte := a.word.bytes ++ a.data

/-- The frame of a reply: the module's address on the line, the request's name unchanged, the body, and the CRC computed as
that of a request (R159, R161, R164). -/
def Reply.frame (r : Reply) (address : Byte) : List Byte := wireFrame address r.name r.answer.body

/-- The bytes with which the module drives a line: the frame of the reply being sent there (R159, R163). A line is not
driven while no reply is being sent, nor while RESET_N is held (R183). -/
def State.replyFrame (s : State) (l : Line) : Option (List Byte) :=
  if s.resetHeld then .none
  else match (s.line l).reply, s.address l with
    | some r, some a => some (r.frame a)
    | _, _ => .none

end Sys2Proof.Machine
end

