-- ==== Sys2Proof/Machine/Weigh.lean ====
section
/-! DEFINITION. The weighing arithmetic (R62 to R69) and the job queue (R52 to R60). All arithmetic is on exact
integers; only the lower edge and the stored deviation are clamped. -/

namespace Sys2Proof.Machine

/-! ## The breakdown check -/

/-- A sum over the lines of a breakdown. -/
def sumLines (lines : List CheckLine) (term : CheckLine → Nat) : Nat := (lines.map term).sum

/-- Ec, in mg (R63). -/
def contentMass (lines : List CheckLine) : Nat := sumLines lines fun l => l.count * l.denom.mass

/-- E, in mg (R63). -/
def expectedMass (t : ToleranceSet) (lines : List CheckLine) : Nat := t.tare + contentMass lines

/-- Ps, in thousandths of a mg (R64). -/
def spreadSum (lines : List CheckLine) : Nat := sumLines lines fun l => l.count * l.denom.mass * l.denom.spread

/-- S, in mg: the spread sum is rounded once, half up (R64). -/
def spread (t : ToleranceSet) (lines : List CheckLine) : Nat := t.tareSpread + (spreadSum lines + 500) / 1000

/-- L, clamped to 0 (R65). -/
def lowerEdge (t : ToleranceSet) (lines : List CheckLine) : Nat := expectedMass t lines - (spread t lines + t.lower)

/-- H (R65). -/
def upperEdge (t : ToleranceSet) (lines : List CheckLine) : Nat := expectedMass t lines + spread t lines + t.upper

/-- The table of R66 and R69. -/
def judge (below above : Bool) : Verdict :=
  match below, above with
  | false, false => .inside
  | true, false => .light
  | false, true => .heavy
  | true, true => .wrong

/-- The verdict of a breakdown check on a reading in tenths of a gram (R66). -/
def breakdownVerdict (t : ToleranceSet) (lines : List CheckLine) (reading : Nat) : Verdict :=
  judge (decide (reading * 100 < lowerEdge t lines)) (decide (upperEdge t lines < reading * 100))

/-- The stored deviation: rounded half up to tenths of a gram, then saturated (R67). -/
def storedDeviation (d : Int) : Int := max (-32768) (min 32767 ((d + 50) / 100))

/-- D, in mg (R67). -/
def difference (t : ToleranceSet) (lines : List CheckLine) (reading : Nat) : Int :=
  (reading * 100 : Nat) - (expectedMass t lines : Int)

/-- V, in minor units (R68). -/
def valueSum (lines : List CheckLine) : Nat := sumLines lines fun l => l.count * l.denom.face

/-- The verdict of a plausibility check (R69). -/
def plausibilityVerdict (t : ToleranceSet) (reading : Nat) : Verdict :=
  judge (decide (reading < t.plausMin)) (decide (t.plausMax < reading))

/-- The four fields a result writes (R59). -/
structure CheckResult where
  verdict : Option Verdict
  deviation : Option Int
  valueSum : Option Nat
  slipMismatch : Bool
deriving DecidableEq, Repr

/-- The check of the values a job took; without a measured mass there is no judgement of mass (R59, R60). -/
def JobInputs.check (i : JobInputs) : CheckResult :=
  match i.advice with
  | some (lines, declared) =>
    { verdict := i.mass.map (breakdownVerdict i.tol lines)
      deviation := i.mass.map fun r => storedDeviation (difference i.tol lines r)
      valueSum := some (valueSum lines)
      slipMismatch := decide (valueSum lines ≠ declared) }
  | .none =>
    { verdict := i.mass.map (plausibilityVerdict i.tol), deviation := .none, valueSum := .none, slipMismatch := false }

/-- The write of a result (R59). -/
def Record.withResult (r : Record) (c : CheckResult) : Record :=
  { r with verdict := c.verdict, deviation := c.deviation, valueSum := c.valueSum, slipMismatch := c.slipMismatch }

/-! ## The job queue -/

/-- The free place count (R52). -/
def State.freePlaces (s : State) : Nat := Config.jobPlaces - s.wau.queue.length

/-- The five states in which a job finds its record (R56). -/
def RecState.inCustody : RecState → Bool
  | .intake | .grace | .held | .staged | .overdue => true
  | .advised | .missing => false

/-- The living record a job is for: it holds the job's receipt and tag, in one of the five states (R56). -/
def State.jobRecord (s : State) (j : Job) : Option Record :=
  (s.record j.receipt).filter fun r => r.tag == j.tag && r.state.inCustody

/-- What a job takes at its start, as it then stands (R56, R48, R51). -/
def State.jobInputs (s : State) (r : Record) : JobInputs where
  mass := r.mass
  tol := s.wau.tols[r.tolSet]
  advice := r.advice.map fun a => (a.lines.map fun l => ⟨l.count, s.wau.denoms[l.denom]⟩, a.declared)

/-- The head of the queue starts; a job without a living record is discarded at once and the next starts (R56). -/
def State.startHead (s : State) : List Job → List Job × Option JobInputs
  | [] => ([], .none)
  | j :: rest =>
    match s.jobRecord j with
    | some r => (j :: rest, some (s.jobInputs r))
    | .none => s.startHead rest

/-- A WAU that is IDLE starts the job at the head of its queue, if any (R56). -/
def State.startWau (s : State) : State :=
  if s.wau.working.isSome then s
  else { s with wau := { s.wau with queue := (s.startHead s.wau.queue).1, working := (s.startHead s.wau.queue).2 } }

/-- A job is queued at the tail, the record's verdict becomes PENDING in the same event (R53), and a job queued into an
empty queue starts (R56). -/
def State.queueJob (s : State) (receipt : Nat) (tag : Option Tag) : State :=
  let s := s.update receipt fun r => { r with verdict := some .pending }
  State.startWau { s with wau := { s.wau with queue := s.wau.queue ++ [{ receipt, tag }] } }

/-- The job at the head completes: its result is written unless its record is gone, is not PENDING, or a later job for
the same receipt and tag stands behind it; the job leaves the queue (R58, R59). -/
def State.finishHead (s : State) : State :=
  match s.wau.working, s.wau.queue with
  | some inputs, j :: rest =>
    let writes := ((s.jobRecord j).map fun r => r.verdict == some .pending).getD false && !rest.contains j
    let s := if writes then s.update j.receipt fun r => r.withResult inputs.check else s
    { s with wau := { s.wau with queue := rest, working := .none } }
  | _, _ => s

end Sys2Proof.Machine
end

