-- ==== Sys2Proof/Machine/Chute.lean ====
section
/-! DEFINITION. The conditions of the chute and the entries of the intake sequencer that other blocks bring about (R95
to R100, R117). -/

namespace Sys2Proof.Machine

/-- The intake sequencer written. -/
def State.setIntake (s : State) (x : Intake) : State := { s with intake := x }

/-- The carousel is in FAULT or in HOMING (R95, condition 3). -/
def Drum.lost : Drum → Bool
  | .homing _ | .fault => true
  | .idle | .settle _ | .moving _ _ => false

/-- The hold of 4 units of pocket 0 stands, or would be granted (R74; R95, condition 2). -/
def State.exceptionRoom (s : State) : Bool :=
  decide (s.pcc.hold = some ⟨0, Config.exceptionHold⟩) || decide (Config.exceptionHold ≤ s.pcc.freeUnits 0)

/-- The conditions of R95 but for the sixth, which holds wherever they are tested: the sequencer is not in JAMMED, or is
leaving it. -/
def State.chuteConditions (s : State) : Bool :=
  decide (1 ≤ s.freeSlots) && s.exceptionRoom && !s.pcc.drum.lost && !s.ss.notConfigured && !s.cr.lossPending

/-- The test of R95: CLOSED by day, READY with the hold when the conditions hold, SHUT otherwise, which raises CHUTE_SHUT
at each entry (R96, R97). A hold that stood without a drop is released (R74). -/
def State.testChute (s : State) : State :=
  if s.cr.night = .day then (s.setHold .none).setIntake { s.intake with phase := .closed }
  else if s.chuteConditions then
    (s.setHold (some ⟨0, Config.exceptionHold⟩)).setIntake { s.intake with phase := .ready }
  else ((s.setHold .none).setIntake { s.intake with phase := .shut }).raiseWhen (s.intake.phase != .shut) .chuteShut

/-- In CLOSED, SHUT and READY the conditions are tested again (R96, R97); in a drop and in JAMMED nothing changes
(R98). -/
def State.retest (s : State) : State :=
  match s.intake.phase with
  | .closed | .shut | .ready => s.testChute
  | .loading | .identify | .weigh | .route | .position | .tip | .jammed => s

/-- The size class: the highest beam the bag interrupts, 1 when there is none (R100). -/
def sizeClass (beams : BitVec 4) : Nat :=
  if beams.getLsbD 3 then 4 else if beams.getLsbD 2 then 3 else if beams.getLsbD 1 then 2 else 1

/-- Entry to LOADING: the readings are cleared and the drawer timer starts (R99). -/
def State.enterLoading (s : State) : State :=
  s.setIntake { s.intake with phase := .loading, readings := {}, drawerTimer := some Config.drawerMs }

/-- Entry to IDENTIFY: the drawer timer stops, the size class is taken, the reader's slots are emptied, and the tag
window starts (R99, R100). -/
def State.enterIdentify (s : State) : State :=
  s.setIntake { s.intake with phase := .identify, readings := { size := some (sizeClass s.pins.beams) }
                              drawerTimer := .none, tagWindow := some Config.tagWindowMs, reader := {} }

/-- The sequencer asks for the hold of 4 units of pocket 0, which is granted when they are free (R74). -/
def State.askHold (s : State) : State :=
  if Config.exceptionHold ≤ s.pcc.freeUnits 0 then s.setHold (some ⟨0, Config.exceptionHold⟩) else s

/-- The homing of a restart ends: a drop found in the drawer is taken up, asking once for the hold (R117, log 14). -/
def State.takeUpDrop (s : State) : State :=
  let s := s.setIntake { s.intake with takeUp := false }
  if !s.pins.drawerShut then s.askHold.enterLoading
  else if s.pins.bagPresent then s.askHold.enterIdentify
  else s.testChute

/-- The carousel has left HOMING, or a fault has been detected: a restart's first end of homing reads the drawer's
sensors (R117), and every other such event tests the conditions again (R96, R97). -/
def State.afterDrumChange (s : State) : State := if s.intake.takeUp then s.takeUpDrop else s.retest

end Sys2Proof.Machine
end

