-- ==== Sys2Proof/Machine/Drum.lean ====
section
/-! DEFINITION. The carousel: moves, the positioning queue and its arbiter, the hatch interlock, jams, faults and homing
(R79 to R93, R110, R142 to R145). -/

namespace Sys2Proof.Machine

/-! ## Moves -/

/-- The other direction. -/
def opposite : Dir → Dir
  | .forward => .backward
  | .backward => .forward

/-- The position after one step (R79). -/
def stepFrom (d : Dir) (k : Fin 21) : Fin 21 :=
  match d with
  | .forward => k + 1
  | .backward => k + 20

/-- The way from `c` to `t`: none for no step, forward for a distance of 1 to 10, backward otherwise (R80). -/
def planMove (c t : Fin 21) : Option (Dir × Nat) :=
  let d := (t - c).val
  if d = 0 then .none else if d ≤ 10 then some (.forward, d) else some (.backward, 21 - d)

/-- The carousel block written. -/
def State.setPcc (s : State) (x : Carousel) : State := { s with pcc := x }

/-- A move enters MOVING: its first step begins, which sets the last direction (R80), and the arrival timer is set to one
step interval more than its steps take (R82). -/
def State.enterMoving (s : State) (m : Move) : State :=
  s.setPcc { s.pcc with drum := .moving m ((m.steps + 1) * m.stepMs), lastDir := some m.dir }

/-- A move of at least one step leaves IDLE with the intervals in force: by way of SETTLE when it reverses and the settle
interval is above 0 (R80, R85). A move of no step leaves the carousel as it is. -/
def State.startMove (s : State) (target : Fin 21) (prePosition : Bool) : State :=
  match s.pcc.position.bind fun c => planMove c target with
  | .none => s
  | some (dir, steps) =>
    let m : Move := { target, dir, steps, stepMs := s.pcc.stepInterval, settleMs := s.pcc.settleInterval, prePosition }
    if s.pcc.lastDir = some (opposite dir) ∧ 0 < s.pcc.settleInterval then s.setPcc { s.pcc with drum := .settle m }
    else s.enterMoving m

/-! ## The hatch -/

/-- The interlock is SECURE: the hatch is locked and its sensor reads shut (R87). -/
def State.secure (s : State) : Bool := s.rc.hatch == .locked && s.pins.hatchShut

/-- The release controller written. -/
def State.setRc (s : State) (x : Release) : State := { s with rc := x }

/-- The hatch is unlocked at the arrival of pocket q, which becomes the open pocket (R144). -/
def State.unlockHatch (s : State) (q : Fin 21) : State :=
  s.setRc { s.rc with hatch := .unlocked, openPocket := some q, unopenedTimer := some Config.unopenedMs }

/-- The open pocket ends, and the repeat guard with it (R144, R146). -/
def State.endOpenPocket (s : State) : State := s.setRc { s.rc with openPocket := .none, guardMark := .none }

/-- The hatch is locked: the open pocket ends and the unopened timer stops (R145). -/
def State.lockHatch (s : State) : State :=
  s.endOpenPocket.setRc { s.endOpenPocket.rc with hatch := .locked, unopenedTimer := .none }

/-- A hatch that is unlocked and has not been opened is locked at once; an opened one waits to be shut (R142, R145). -/
def State.lockUnopened (s : State) : State := if s.rc.hatch = .unlocked then s.lockHatch else s

/-! ## The arbiter -/

/-- The requests written. -/
def State.setQueue (s : State) (q : List PosRequest) : State := s.setPcc { s.pcc with queue := q }

/-- The carousel can serve: it is IDLE, the interlock is SECURE, and no intake request is in service (R84). -/
def State.canServe (s : State) : Bool :=
  s.pcc.drum == .idle && s.secure && !s.pcc.queue.any fun r => r.stage == .inService

/-- A request of this source that waits (R84). -/
def waits (src : Source) (r : PosRequest) : Bool := r.source == src && r.stage == .waiting

/-- Whose request is served next: the intake request if one waits, else a release request (R84). -/
def nextSource (q : List PosRequest) : Option Source :=
  if q.any (waits .intake) then some .intake else if q.any (waits .release) then some .release else .none

/-- The oldest waiting request of a source is served (R84). -/
def markServing (src : Source) : List PosRequest → List PosRequest
  | [] => []
  | r :: rest => if waits src r then { r with stage := .serving } :: rest else r :: markServing src rest

/-- The request being served. -/
def servedRequest (q : List PosRequest) : Option PosRequest := q.find? fun r => r.stage == .serving

/-- Entry to TIP: the tip actuator is driven and the tip timer starts (R108). -/
def State.enterTip (s : State) : State :=
  s.setIntake { s.intake with phase := .tip, tipTimer := some Config.tipMs }

/-- The arrival of the request being served is handed to its source: an intake request is in service and the tip begins;
a release request leaves the queue, and unlocks the hatch unless it was withdrawn (R85, R144). -/
def State.arrive (s : State) : State :=
  match servedRequest s.pcc.queue with
  | .none => s
  | some r =>
    match r.source with
    | .intake =>
      (s.setQueue (s.pcc.queue.map fun x => if x.stage = .serving then { x with stage := .inService } else x)).enterTip
    | .release =>
      let s := s.setQueue (s.pcc.queue.filter fun x => x.stage != .serving)
      if r.withdrawn then s else s.unlockHatch r.pocket

/-- The arbiter: where the carousel can serve, it serves the next request. One that needs no step arrives at once
(R84, R85); after it the hatch is unlocked or the station is held, so that no other is served. -/
def State.serve (s : State) : State :=
  if s.canServe then
    match nextSource s.pcc.queue with
    | .none => s
    | some src =>
      let s := s.setQueue (markServing src s.pcc.queue)
      match servedRequest s.pcc.queue with
      | .none => s
      | some r => if s.pcc.position = some r.target then s.arrive else s.startMove r.target false
  else s

/-- A request that enters during a pre-position move, the weak option on: a settle is abandoned, and a turning drum stops
at the end of the step under way (R89). -/
def State.cutPreMove (s : State) : State :=
  if s.pcc.weakOption then
    match s.pcc.drum with
    | .settle m => if m.prePosition then s.setPcc { s.pcc with drum := .idle } else s
    | .moving m t =>
      match s.pcc.position with
      | some k =>
        if m.prePosition then s.setPcc { s.pcc with drum := .moving { m with target := stepFrom m.dir k } t } else s
      | .none => s
    | .idle | .homing _ | .fault => s
  else s

/-- A request enters the positioning queue (R83, R84, R89). -/
def State.enqueue (s : State) (r : PosRequest) : State := ((s.setQueue (s.pcc.queue ++ [r])).cutPreMove).serve

/-- The release requests that stand in the queue (R83). -/
def State.releaseCount (s : State) : Nat := s.pcc.queue.countP fun r => r.source == .release

/-- The drop station is held: an intake request is in service (R85). -/
def State.stationHeld (s : State) : Bool := s.pcc.queue.any fun r => r.stage == .inService

/-- The move ends at its target: the carousel is IDLE, the arrival is handed over, and the arbiter serves on (R82,
R85). -/
def State.arriveAt (s : State) (k : Fin 21) : State :=
  ((s.setPcc { s.pcc with position := some k, drum := .idle }).arrive).serve

/-! ## Pre-positioning -/

/-- Pockets 1 to 20 in ascending order (R34). -/
def storagePockets : List (Fin 21) := (List.finRange 21).drop 1

/-- The group of a remembered range as it stands now (R88). -/
def State.groupOfRange (s : State) : Option RangeRef → List (Fin 21)
  | some (.entry n) => s.trt.entries[n].group
  | some .general => storagePockets
  | .none => []

/-- The pre-position target: the last intake pocket while it is OPEN, else the first OPEN pocket after it in its range's
group (R88). -/
def State.preTarget (s : State) : Option (Fin 21) :=
  match s.pcc.lastIntake with
  | .none => .none
  | some (p, range) =>
    if s.pcc.classOf p = .opened then some p
    else (((s.groupOfRange range).dropWhile (· ≠ p)).drop 1).find? fun x => s.pcc.classOf x == .opened

/-- At the tip completion of a served intake request: with the option on, the queue empty and the interlock SECURE the
drum may pre-position, and otherwise the arbiter serves a waiting request (R88). -/
def State.prePositionOrServe (s : State) : State :=
  if s.pcc.prePosition && s.pcc.queue.isEmpty && s.secure && s.pcc.drum == .idle then
    match s.preTarget with
    | some t => s.startMove t true
    | .none => s
  else s.serve

/-! ## Jams -/

/-- Entry to JAMMED: the drop's timers stop, the hold is released, the intake request leaves the queue, the record flag
JAMMED is set in the INTAKE record, and JAM is raised (R110). -/
def State.jam (s : State) : State :=
  let s := s.setIntake { s.intake with phase := .jammed, drawerTimer := .none, tagWindow := .none
                                       weighTimer := .none, tipTimer := .none }
  let s := s.setHold .none
  let s := s.setQueue (s.pcc.queue.filter fun r => r.source != .intake)
  let s := s.setRecords (s.cr.records.map fun r => if r.state = .intake then { r with jammed := true } else r)
  s.raise .jam

/-- Entry to JAMMED outside a carousel fault: the arbiter then serves the next request (R85). -/
def State.enterJammed (s : State) : State := s.jam.serve

/-! ## Faults and homing -/

/-- The sequencer waits for or uses its positioning request (R91, R107, R108). -/
def Phase.positioned : Phase → Bool
  | .position | .tip => true
  | .closed | .shut | .ready | .loading | .identify | .weigh | .route | .jammed => false

/-- A carousel fault (R91): the drum stops and its position is unknown, every request is cancelled, a drop that waits for
or uses the drum jams, the open pocket ends and an unopened hatch is locked, CAROUSEL_FAULT is raised, and the chute's
conditions are tested again (R96, R97). -/
def State.carouselFault (s : State) : State :=
  let s := s.setPcc { s.pcc with drum := .fault, position := .none, lastDir := .none, queue := [] }
  let s := if s.intake.phase.positioned then s.jam else s
  let s := s.endOpenPocket.lockUnopened
  (s.raise .carouselFault).afterDrumChange

/-- The homing search ends at the mark: position 0, last direction forward, IDLE; the chute's conditions are tested or a
drop is taken up, and the arbiter serves (R93, R96, R117). -/
def State.homed (s : State) : State :=
  ((s.setPcc { s.pcc with drum := .idle, position := some 0, lastDir := some .forward }).afterDrumChange).serve

/-- The homing search begins, with the step interval in force and a timer of 43 step intervals; a mark that is reported
already ends it with no step (R93). -/
def State.beginSearch (s : State) : State :=
  if s.pins.refMark then s.homed
  else s.setPcc { s.pcc with drum := .homing (some { steps := 0, stepMs := s.pcc.stepInterval
                                                     timerMs := 43 * s.pcc.stepInterval }) }

/-- The hatch-shut sensor reads shut with the hatch locked: the search of a restart begins (R93), and otherwise the
arbiter serves (R84, R87). -/
def State.interlockSecured (s : State) : State :=
  match s.pcc.drum with
  | .homing .none => s.beginSearch
  | .idle | .settle _ | .moving _ _ | .homing (some _) | .fault => s.serve

/-! ## Leaving the session -/

/-- The release requests are withdrawn: a waiting one leaves the queue, and one being moved for is marked (R86,
R142). -/
def withdraw (q : List PosRequest) : List PosRequest :=
  (q.filter fun r => !waits .release r).map fun r => if r.source = .release then { r with withdrawn := true } else r

/-- The session leaves OPEN (R142): the idle timer stops, the release requests are withdrawn, the open pocket ends, and
an unopened hatch is locked, after which the arbiter serves (R84). -/
def State.leaveOpen (s : State) : State :=
  let s := s.setRc { s.rc with session := .closed }
  let s := s.setQueue (withdraw s.pcc.queue)
  (s.endOpenPocket.lockUnopened).serve

/-- PCLS, the idle expiry and the fall of the permit close a session (R137, R140, R142). -/
def State.closeSession (s : State) : State :=
  match s.rc.session with
  | .closed => s
  | .pairing _ _ => s.setRc { s.rc with session := .closed }
  | .opened _ => s.leaveOpen

/-- A change of the permit's inputs: where the permit was present before and is not after, the session closes (R137). -/
def State.afterPermit (before after : State) : State :=
  if before.permit && !after.permit then after.closeSession else after

end Sys2Proof.Machine
end

