-- ==== Sys2Proof/Machine/Route.lean ====
section
/-! DEFINITION. The route decision (R31, R34, R36 to R42, R106) and what a freed job place lets happen (R54). -/

namespace Sys2Proof.Machine

/-- A candidate of the route: an entry of the table or the general range (R38). -/
structure Candidate where
  ref : RangeRef
  entry : RangeEntry
deriving DecidableEq, Repr

/-- What a route ends with (R42). -/
structure Route where
  pocket : Fin 21
  range : Option RangeRef
  tolSet : Fin 4
  nominal : Option (Fin 21) := .none
  cause : Option Cause := .none
deriving DecidableEq, Repr

/-- The general range (R34). -/
def generalRange : RangeEntry where
  enabled := true
  group := storagePockets

/-- A tag matches an enabled entry when the leading prefix-length bits of tag and base are equal (R31). -/
def RangeEntry.matches (e : RangeEntry) (t : Tag) : Bool :=
  e.enabled && (t >>> (32 - e.prefixLength) == e.base >>> (32 - e.prefixLength))

/-- The candidate list (R38). -/
def Routing.candidates (x : Routing) (t : Option Tag) : List Candidate :=
  if x.general then [⟨.general, generalRange⟩]
  else ((List.finRange 8).filter fun n => (t.map x.entries[n].matches).getD false).map fun n => ⟨.entry n, x.entries[n]⟩

/-- The cap test applies: the candidate has a cap, the record a customer, and the customer's bag count is at least the
cap (R39). -/
def State.capped (s : State) (r : Record) (e : RangeEntry) : Bool :=
  decide (0 < e.cap) && match r.advice with
    | .none => false
    | some a => decide (e.cap ≤ customerBags s.cr.records a.customer r.receipt)

/-- The third to fifth stages, for one open candidate and then those after it (R39 to R41). -/
def State.routeOpen (s : State) (r : Record) : Candidate → List Candidate → Route
  | c, rest =>
    if s.capped r c.entry then { pocket := 0, range := some c.ref, tolSet := c.entry.tolSet, cause := some .cap }
    else match c.entry.group.find? (fun p => s.pcc.fits p r.size) with
      | some p =>
        if c.entry.audit then
          { pocket := 0, range := some c.ref, tolSet := c.entry.tolSet, nominal := some p, cause := some .audit }
        else { pocket := p, range := some c.ref, tolSet := c.entry.tolSet }
      | .none =>
        match rest with
        | [] => { pocket := 0, range := some c.ref, tolSet := c.entry.tolSet, cause := some .noRoom }
        | next :: rest => s.routeOpen r next rest

/-- The causes set at identification, at which the first stage ends the route (R37). -/
def Cause.atIdentification : Cause → Bool
  | .noTag | .twoTags | .dupTag => true
  | .noRange | .rangeClosed | .cap | .noRoom | .audit => false

/-- The second stage: no candidate, none open, or the open ones in order (R38). -/
def State.routeAmong (s : State) (r : Record) (candidates : List Candidate) : Route :=
  match candidates, candidates.filter fun c => !c.entry.closed with
  | [], _ => { pocket := 0, range := .none, tolSet := 0, cause := some .noRange }
  | first :: _, [] => { pocket := 0, range := some first.ref, tolSet := first.entry.tolSet, cause := some .rangeClosed }
  | _ :: _, c :: rest => s.routeOpen r c rest

/-- The route of the drop's record (R37 to R41). -/
def State.route (s : State) (r : Record) : Route :=
  match r.cause.filter Cause.atIdentification with
  | some cause => { pocket := 0, range := .none, tolSet := 0, cause := some cause }
  | .none => s.routeAmong r (s.trt.candidates r.tag)

/-- The write of the route's result into the record (R42). -/
def Record.routed (r : Record) (x : Route) : Record :=
  { r with range := x.range, tolSet := x.tolSet, nominal := x.nominal, cause := x.cause }

/-- The sequencer offers its positioning request: refused in FAULT, where it enters JAMMED (R83, R107). -/
def State.offerIntake (s : State) (p : Fin 21) : State :=
  if s.pcc.drum = .fault then s.enterJammed else s.enqueue { source := .intake, target := p, pocket := p }

/-- The route decision, one event (R106): the route is written, the hold moves to the chosen pocket (R74), POSITION is
entered, the job is queued (R53), and the positioning request is offered (R107). -/
def State.decideRoute (s : State) : State :=
  match s.intakeRecord with
  | .none => s
  | some r =>
    let x := s.route r
    let s := s.update r.receipt fun r => r.routed x
    let s := s.setHold (some ⟨x.pocket, r.size.getD 0⟩)
    let s := s.setIntake { s.intake with phase := .position
                                         readings := { s.intake.readings with chosen := some x.pocket } }
    (s.queueJob r.receipt r.tag).offerIntake x.pocket

/-- In ROUTE with a free place in the job queue, the route decision is taken at once (R54, R106). -/
def State.takeRoute (s : State) : State :=
  if s.intake.phase = .route ∧ 1 ≤ s.freePlaces then s.decideRoute else s

/-- Entry to ROUTE (R105, R106). -/
def State.enterRoute (s : State) : State :=
  (s.setIntake { s.intake with phase := .route, weighTimer := .none }).takeRoute

end Sys2Proof.Machine
end

