-- ==== Sys2Proof/Machine/Image.lean ====
section
/-! DEFINITION. The settings image: its 435 bytes (R177), the checks of an image at start-up, the outcome of the load
(R178) and the writes of a save (R181). DEDUCED (log 11): each section holds its entries one after the other in the form
of their write requests, which makes up the 435 bytes the rule states. -/

namespace Sys2Proof.Machine

/-- Every setting the image keeps (R177); the capacities are those of pockets 1 to 20 in ascending order. -/
structure SettingValues where
  entries : Vector RangeEntry 8
  general : Bool
  denoms : Vector Denomination 16
  tols : Vector ToleranceSet 4
  capacities : Vector Nat 20
  roster : List Staff
  policy : List PolicyTerm
  timers : TimerValues
deriving DecidableEq, Repr

/-- The defaults of every setting (R178). -/
def SettingValues.default : SettingValues where
  entries := Vector.replicate 8 {}
  general := true
  denoms := Vector.replicate 16 {}
  tols := Vector.replicate 4 {}
  capacities := Vector.replicate 20 Config.maxCapacity
  roster := []
  policy := defaultPolicy
  timers := TimerValues.default

/-- The storage pocket of a place in the capacities section (R177). -/
def storagePocket (i : Fin 20) : Fin 21 := i.succ

/-- The working timers, options and enables, from the blocks that own them (R177, R180). -/
def State.timers (s : State) : TimerValues where
  grace := s.cr.graceInterval
  handover := s.rc.handoverInterval
  pairing := s.rc.pairingInterval
  idle := s.rc.idleInterval
  step := s.pcc.stepInterval
  settle := s.pcc.settleInterval
  prePosition := s.pcc.prePosition
  weakOption := s.pcc.weakOption
  enables := s.ls.enables

/-- The timers, options and enables written to the blocks that own them; the attention output is worked out again in the
same event (R174, R180). -/
def State.withTimers (s : State) (t : TimerValues) : State :=
  { s with
    cr := { s.cr with graceInterval := t.grace }
    rc := { s.rc with handoverInterval := t.handover, pairingInterval := t.pairing, idleInterval := t.idle }
    pcc := { s.pcc with stepInterval := t.step, settleInterval := t.settle, prePosition := t.prePosition
                        weakOption := t.weakOption }
    ls := { s.ls with enables := t.enables, attention := attentionOf s.ls.flags t.enables } }

/-- Every setting as it stands in the blocks (R181). -/
def State.settings (s : State) : SettingValues where
  entries := s.trt.entries
  general := s.trt.general
  denoms := s.wau.denoms
  tols := s.wau.tols
  capacities := Vector.ofFn fun i => s.pcc.pockets[storagePocket i].capacity
  roster := s.rc.roster
  policy := s.rc.policy
  timers := s.timers

/-- The capacity of a pocket: pocket 0's is always 24 (R71). -/
def SettingValues.capacity (x : SettingValues) (p : Fin 21) : Nat :=
  if h : p.val = 0 then Config.maxCapacity else x.capacities[p.val - 1]'(by omega)

/-- The settings given to each block (R178). -/
def State.install (s : State) (x : SettingValues) : State :=
  { s with
    trt := { entries := x.entries, general := x.general }
    wau := { s.wau with denoms := x.denoms, tols := x.tols }
    pcc := { s.pcc with pockets := Vector.ofFn fun p => { s.pcc.pockets[p] with capacity := x.capacity p } }
    rc := { s.rc with roster := x.roster, policy := x.policy } }.withTimers x.timers

/-! ## Writing -/

/-- `n` places from a place of the image on that a count field leaves unused: free values (log 12). -/
def unusedPlaces (save place n : Nat) : List Byte := (List.range n).map fun i => Config.unusedPlace save (place + i)

/-- The place of range entry i in the image: 19 bytes each after the three bytes of the header (R177). -/
def rangePlace (i : Fin 8) : Nat := 3 + 19 * i.val

/-- A range entry with a group of 8 places (R177). -/
def rangeImage (save : Nat) (e : RangeEntry) (i : Fin 8) : List Byte :=
  e.bytes ++ unusedPlaces save (rangePlace i + 11 + e.group.length) (8 - e.group.length)

/-- The place of the roster's count in the image (R177). -/
def rosterPlace : Nat := 344

/-- The place of the count policy's count in the image (R177). -/
def policyPlace : Nat := 409

/-- The place of the timers in the image (R177). -/
def timerPlace : Nat := 418

/-- The 433 bytes the image's CRC covers (R177). -/
def SettingValues.body (x : SettingValues) (save : Nat) : List Byte :=
  1#8 :: (be 2 imageLength ++
  ((List.finRange 8).flatMap fun i => rangeImage save x.entries[i] i) ++ [yesNo x.general] ++
  x.denoms.toList.flatMap Denomination.bytes ++ x.tols.toList.flatMap ToleranceSet.bytes ++
  x.capacities.toList.map byte ++
  byte x.roster.length :: (x.roster.flatMap Staff.bytes ++
    unusedPlaces save (rosterPlace + 1 + 4 * x.roster.length) (64 - 4 * x.roster.length)) ++
  byte x.policy.length :: (x.policy.flatMap PolicyTerm.bytes ++
    unusedPlaces save (policyPlace + 1 + 2 * x.policy.length) (8 - 2 * x.policy.length)) ++
  x.timers.bytes ++ be 2 x.timers.enables.toNat)

/-- The settings image, its CRC high byte first (R177). -/
def SettingValues.image (x : SettingValues) (save : Nat) : List Byte :=
  x.body save ++ be 2 (crc16 (x.body save)).toNat

/-- The writes of a save in their order: the format byte as 0, every other byte, the format byte as 1 (R181). -/
def saveWrites (copy : List Byte) : List (Nat × Byte) :=
  (0, 0#8) :: ((List.range (imageLength - 1)).map (fun i => (i + 1, byteAt copy (i + 1))) ++ [(0, 1#8)])

/-! ## Reading -/

/-- A range entry read from its place as RNGW would carry it: the group's count must be at most its 8 places (R32,
R178). -/
def readRange (image : List Byte) (i : Fin 8) : Option RangeEntry :=
  let n := (byteAt image (rangePlace i + 10)).toNat
  if n ≤ 8 then rangeEntryOf (rangeFieldAt image (rangePlace i) (slice image (rangePlace i + 11) n)) else .none

/-- Items of `k` bytes from a place on. -/
def readItems (image : List Byte) (place k n : Nat) : List (List Byte) := chunks k n (image.drop place)

/-- The roster read as ROST would carry it (R136, R178). -/
def readRoster (image : List Byte) : Option (List Staff) :=
  let n := (byteAt image rosterPlace).toNat
  if n ≤ 16 then rosterOf ((readItems image (rosterPlace + 1) 4 n).map staffField) else .none

/-- The count policy read as POLW would carry it (R152, R178). -/
def readPolicy (image : List Byte) : Option (List PolicyTerm) :=
  let n := (byteAt image policyPlace).toNat
  if n ≤ 4 then policyOf ((readItems image (policyPlace + 1) 2 n).map termField) else .none

/-- The timers read as TIMW would carry them (R178, R180). -/
def readTimers (image : List Byte) : Option TimerValues := timersOf (timerFieldAt image timerPlace)

/-- The fields of an image, each checked and clamped as its write request would be: none where one fails (R178,
step 3). -/
def readSettings (image : List Byte) : Option SettingValues := do
  let entries ← allSome ((List.finRange 8).map (readRange image))
  let general ← flagOf (byteAt image 155)
  let denoms ← allSome ((readItems image 156 6 16).map fun c => denominationOf (denomField c))
  let roster ← readRoster image
  let policy ← readPolicy image
  let timers ← readTimers image
  some { entries := Vector.ofFn fun i => entries.getD i.val {}
         general
         denoms := Vector.ofFn fun i => denoms.getD i.val {}
         tols := Vector.ofFn fun i => toleranceOf (tolFieldAt image (252 + 18 * i.val))
         capacities := Vector.ofFn fun i => min Config.maxCapacity (byteAt image (324 + i.val)).toNat
         roster, policy, timers }

/-- The checks of an image that is not blank, in their order (R178): format and length, the CRC, the fields. -/
def checkImage (image : List Byte) : Option SettingValues :=
  if byteAt image 0 = 1#8 ∧ field 16 (slice image 1 2) = BitVec.ofNat 16 imageLength then
    if crc16 (image.take (imageLength - 2)) = field 16 (slice image (imageLength - 2) 2) then readSettings image
    else .none
  else .none

/-- The header word is FFFF hex (R177, R178). -/
def headerBlank (image : List Byte) : Bool := byteAt image 0 == 0xFF#8 && byteAt image 1 == 0xFF#8

/-- The outcome of the load and the settings it gives: the first row of R178 whose condition holds. An EEPROM that does
not answer is taken as BAD. -/
def loadSettings (autoloadOff answers : Bool) (image : List Byte) : LoadOutcome × SettingValues :=
  if autoloadOff then (.defaults, SettingValues.default)
  else if answers && headerBlank image then (.blank, SettingValues.default)
  else match (if answers then checkImage image else .none) with
    | .none => (.bad, SettingValues.default)
    | some x => (.loaded, x)

end Sys2Proof.Machine
end

