-- ==== Sys2Proof/Machine/Advices.lean ====
section
/-! DEFINITION. The advices: ADVS (R118 to R129), WDRW (R130), RETR (R131). -/

namespace Sys2Proof.Machine

/-- The summary of the record with a receipt, as a reply's data (R166). -/
def State.summaryOf (s : State) (n : Nat) : List Byte := ((s.record n).map Record.summary).getD []

/-- The ADVISED record of an advice (R121). -/
def advisedRecord (tag : Tag) (a : Advice) (n : Nat) : Record where
  receipt := n
  tag := some tag
  claims := true
  state := .advised
  location := .absent
  advice := some a
  mark := .before

/-- The declared sum of the pocket in which a record stands rises by an advice's declared total (R77). -/
def State.raiseDeclared (s : State) (where_ : Location) (amount : Nat) : State :=
  match where_ with
  | .pocket p => s.setPocket p { s.pcc.pockets[p] with declared := s.pcc.pockets[p].declared + amount }
  | .absent | .drawer | .out => s

/-- An advice attaches to a record in a pocket (R124): the record is HELD with the advice and the mark, its grace timer
stopped, the declared sums rise, and its job is queued. -/
def State.attach (s : State) (r : Record) (a : Advice) (mark : AdviceMark) : State :=
  let s := s.update r.receipt fun x => { x with advice := some a, mark, state := .held, grace := .none }
  let s := s.raiseDeclared r.location a.declared
  let s := { s with cr := { s.cr with totals := { s.cr.totals with
    declared := saturate Config.sumLimit (s.cr.totals.declared + a.declared) } } }
  s.queueJob r.receipt r.tag

/-- Where an advice that passed R119 goes: the first row of R120 whose condition holds. -/
def State.advise (s : State) (tag : Tag) (a : Advice) : State × Answer :=
  match s.claimant tag with
  | .none =>
    if Config.adviceReserve < s.freeSlots then
      let t := s.create (advisedRecord tag a)
      ok t (t.summaryOf s.freshReceipt)
    else refuse s .full
  | some r =>
    match r.state with
    | .advised | .missing =>
      let t := s.update r.receipt fun x => { x with advice := some a }
      ok t (t.summaryOf r.receipt)
    | .intake => refuse s .collide
    | .grace =>
      if 2 ≤ s.freePlaces then
        let t := s.attach r a .inGrace
        ok t (t.summaryOf r.receipt)
      else refuse s .busy
    | .held =>
      if r.mark ≠ .none then refuse s .badState
      else if 2 ≤ s.freePlaces then
        let t := (s.attach r a .late).raise .lateAdvice
        (t, { word := .late, data := t.summaryOf r.receipt })
      else refuse s .busy
    | .staged | .overdue => refuse s .badState

/-- ADVS (R119, R120). -/
def execAdvs (tag : Tag) (customer : BitVec 24) (declared : BitVec 40) (lines : List LineField) (s : State) : Result :=
  takeRequest s .branch ReqName.advs.code fun s =>
    match adviceOf s.wau.denoms tag customer declared lines with
    | .none => refuse s .badValue
    | some a => s.advise tag a

/-- WDRW and RETR: the claiming record must be in the one state named, and is removed; the freed slot may open the chute
(R130, R131, R96). -/
def State.withdrawAdvice (s : State) (tag : Tag) (wanted : RecState) : State × Answer :=
  if !isTag tag then refuse s .badValue
  else match s.claimant tag with
    | .none => refuse s .notFound
    | some r =>
      if r.state = .intake then refuse s .collide
      else if r.state ≠ wanted then refuse s .badState
      else ok (s.remove r.receipt).retest r.summary

/-- WDRW (R130). -/
def execWdrw (tag : Tag) (s : State) : Result :=
  takeRequest s .branch ReqName.wdrw.code fun s => s.withdrawAdvice tag .advised

/-- RETR (R131). -/
def execRetr (tag : Tag) (s : State) : Result :=
  takeRequest s .branch ReqName.retr.code fun s => s.withdrawAdvice tag .missing

end Sys2Proof.Machine
end

