-- ==== Sys2Proof/Machine/CarouselEvents.lean ====
section
/-! DEFINITION. The carousel's own events: serving (R84, R85), the settle interval (R85), encoder reports (R79, R82, R90,
R93), the arrival timer (R82), the reference mark and the homing timer (R93), and HOME (R92). -/

namespace Sys2Proof.Machine

/-- CAROUSEL_SERVE (R84, R85). The model serves already in the event that makes the conditions hold (log 5). -/
def execCarouselServe (s : State) : Result := takeEvent s State.serve

/-- The settle interval expires: SETTLE goes on to MOVING (R85). -/
def execSettleExpiry (s : State) : Result :=
  takeEvent s fun s =>
    match s.pcc.drum with
    | .settle m => s.enterMoving m
    | .idle | .moving _ _ | .homing _ | .fault => s

/-- A step reported in MOVING: on the path the position moves by one and the target is an arrival; against the direction
it is a fault (R82, R90). -/
def State.moveStep (s : State) (m : Move) (dir : Dir) : State :=
  if dir = m.dir then
    match s.pcc.position with
    | .none => s
    | some k =>
      if stepFrom dir k = m.target then s.arriveAt (stepFrom dir k)
      else s.setPcc { s.pcc with position := some (stepFrom dir k) }
  else s.carouselFault

/-- A step reported in a homing search: forward steps are the search, which has failed at the 42nd without the mark; a
backward step is a fault (R90, R93). -/
def State.searchStep (s : State) (x : Search) (dir : Dir) : State :=
  match dir with
  | .backward => s.carouselFault
  | .forward =>
    if Config.homingSteps ≤ x.steps + 1 then s.carouselFault
    else s.setPcc { s.pcc with drum := .homing (some { x with steps := x.steps + 1 }) }

/-- An encoder step report (R79, R82, R90, R93). The drum has left what the mark sensor read (log 9). Before the search
begins a forward step has no effect (log 10). -/
def execEncoderStep (dir : Dir) (s : State) : Result :=
  takeEvent s fun s =>
    let s := { s with pins := { s.pins with refMark := false } }
    match s.pcc.drum with
    | .idle | .settle _ => s.carouselFault
    | .moving m _ => s.moveStep m dir
    | .homing (some x) => s.searchStep x dir
    | .homing .none => if dir = .backward then s.carouselFault else s
    | .fault => s

/-- The arrival timer expires with the position not at the target: a carousel fault (R82, R90). -/
def execArrivalTimerExpiry (s : State) : Result :=
  takeEvent s fun s =>
    match s.pcc.drum with
    | .moving _ _ => s.carouselFault
    | .idle | .settle _ | .homing _ | .fault => s

/-- The reference mark is reported: it ends a search, and is ignored in every other state of the drum (R93); the sensor
reads it until the drum steps (log 9). -/
def execReferenceMark (s : State) : Result :=
  takeEvent s fun s =>
    let s := { s with pins := { s.pins with refMark := true } }
    match s.pcc.drum with
    | .homing (some _) => s.homed
    | .homing .none | .idle | .settle _ | .moving _ _ | .fault => s

/-- The homing timer expires: the search has failed (R93). -/
def execHomingTimerExpiry (s : State) : Result :=
  takeEvent s fun s =>
    match s.pcc.drum with
    | .homing (some _) => s.carouselFault
    | .homing .none | .idle | .settle _ | .moving _ _ | .fault => s

/-- HOME (R92): in FAULT, by a supervisor, with the interlock SECURE, the search begins at once (R93). -/
def execHome (id : BitVec 24) (s : State) : Result :=
  takeRequest s .branch ReqName.home.code fun s =>
    if s.pcc.drum ≠ .fault then refuse s .badState
    else if s.role id ≠ some .supervisor then refuse s .deny
    else if !s.secure then refuse s .busy
    else ok s.beginSearch

end Sys2Proof.Machine
end

