-- ==== Sys2Proof/Machine/Drop.lean ====
section
/-! DEFINITION. The drop sequence (Chapter 5): the drawer, the tag readers, the scale, the route decision, the tip, jams
and JAMC, and the grace timer of a placed record (R9). -/

namespace Sys2Proof.Machine

/-! ## LOADING -/

/-- The drawer-shut sensor reports the drawer open: a drop begins in READY, and the report is ignored in every other
phase (R99). -/
def execDrawerOpened (s : State) : Result :=
  takeEvent s fun s =>
    let s := s.setPins { s.pins with drawerShut := false }
    if s.intake.phase = .ready then s.enterLoading else s

/-- The drawer is shut (R99): in LOADING a bag present goes on to IDENTIFY (R100), and without one the drop ends and the
conditions are tested. -/
def execDrawerShut (bagPresent : Bool) (beams : BitVec 4) (s : State) : Result :=
  takeEvent s fun s =>
    let s := s.setPins { s.pins with drawerShut := true, bagPresent, beams }
    if s.intake.phase = .loading then
      if bagPresent then s.enterIdentify
      else (s.setIntake { s.intake with drawerTimer := .none }).testChute
    else s

/-- The drawer timer expires in LOADING, which raises DRAWER_HELD once (R99). -/
def execDrawerTimerExpiry (s : State) : Result :=
  takeEvent s fun s =>
    if s.intake.phase = .loading ∧ s.intake.drawerTimer.isSome then
      (s.setIntake { s.intake with drawerTimer := .none }).raise .drawerHeld
    else s

/-! ## The tag readers -/

/-- A completed read moves into an empty holding slot, and is discarded from the receive slot otherwise; the receive slot
is empty again either way (R101). -/
def ReaderSlots.complete (x : ReaderSlots) (read : TagRead) : ReaderSlots where
  receive := .none
  holding := if x.holding.isSome then x.holding else some read

/-- The slots of a reader. -/
def State.reader (s : State) : ReaderId → ReaderSlots
  | .drawer => s.intake.reader
  | .hatch => s.rc.reader

/-- The slots of a reader written. -/
def State.setReader (s : State) (id : ReaderId) (x : ReaderSlots) : State :=
  match id with
  | .drawer => s.setIntake { s.intake with reader := x }
  | .hatch => s.setRc { s.rc with reader := x }

/-- A tag reader completes a read: lost with READER_OVERRUN while the holding slot holds the read before it (R101). -/
def execTagReadComplete (reader : ReaderId) (read : TagRead) (s : State) : Result :=
  takeEvent s fun s =>
    (s.setReader reader ((s.reader reader).complete read)).raiseWhen (s.reader reader).holding.isSome .readerOverrun

/-- What a read does to the readings of the tag window (R102). -/
def Readings.takeRead (x : Readings) (read : TagRead) : Readings :=
  match read with
  | .bad => x
  | .good t =>
    if !isTag t then x
    else match x.firstTag with
      | .none => { x with firstTag := some t }
      | some first => if t = first then x else { x with secondTag := true }

/-- The intake sequencer takes the read that waits at the drawer reader, if any; outside IDENTIFY it discards it (R101,
R102). -/
def execDrawerReadTaken (s : State) : Result :=
  takeEvent s fun s =>
    match s.intake.reader.holding with
    | .none => s
    | some read =>
      s.setIntake { s.intake with
        reader := { s.intake.reader with holding := .none }
        readings := if s.intake.phase = .identify then s.intake.readings.takeRead read else s.intake.readings }

/-! ## Identification -/

/-- A new record of a drop (R1, R5). -/
def droppedRecord (tag : Option Tag) (claims : Bool) (cause : Option Cause) (size : Option Nat) (n : Nat) : Record where
  receipt := n
  tag := tag
  claims := claims
  state := .intake
  location := .drawer
  cause := cause
  size := size

/-- A new record takes a slot; none is made when no slot is free (R2, R103, log 15). -/
def State.createDropped (s : State) (tag : Option Tag) (claims : Bool) (cause : Option Cause) : Option State :=
  if 1 ≤ s.freeSlots then some (s.create (droppedRecord tag claims cause s.intake.readings.size)) else .none

/-- A matched ADVISED or MISSING record enters INTAKE and takes the size class (R5). -/
def Record.matched (r : Record) (size : Option Nat) : Record := { r with state := .intake, location := .drawer, size }

/-- The register opens the drop's record by the outcome of identification and the tag index (R5, R103). -/
def State.openRecord (s : State) : Option State :=
  match s.intake.readings.firstTag, s.intake.readings.secondTag with
  | .none, _ => s.createDropped .none false (some .noTag)
  | some t, true => s.createDropped (some t) false (some .twoTags)
  | some t, false =>
    match s.claimant t with
    | .none => s.createDropped (some t) true .none
    | some r =>
      match r.state with
      | .advised | .missing => some (s.update r.receipt fun x => x.matched s.intake.readings.size)
      | .intake | .grace | .held | .staged | .overdue => s.createDropped (some t) false (some .dupTag)

/-- After the record is opened: WEIGH with the weigh timer (R103, R104), or JAMMED for a taken-up drop whose hold was
refused (R117). DESIGN CHOICE (log 26): the record of a drop that jams here keeps INTERRUPTED as it was, which is clear. -/
def State.afterWindow (s : State) : State :=
  let s := s.setIntake { s.intake with tagWindow := .none }
  if s.pcc.hold.isSome then s.setIntake { s.intake with phase := .weigh, weighTimer := some Config.weighMs }
  else s.enterJammed

/-- The tag window expires (R103). -/
def execTagWindowExpiry (s : State) : Result :=
  whenRunning s fun s =>
    if s.intake.phase = .identify ∧ s.intake.tagWindow.isSome then
      match s.openRecord with
      | .none => .fault .noFreeSlot
      | some t => .next t.afterWindow
    else .next s

/-! ## The scale -/

/-- The value taken, clamped to the scale's range (R104). -/
def clampReading (v : Int) : Nat := min Config.fullScale v.toNat

/-- The value above full scale sets OVER_RANGE (R104). -/
def overRangeOf (v : Int) : Bool := decide ((Config.fullScale : Int) < v)

/-- The value is taken: the measured mass and the scale flags are written into the INTAKE record, and ROUTE is entered in
the same event (R104, R105). -/
def State.takeValue (s : State) (v : Int) (unsteady : Bool) : State :=
  let s := s.setRecords (s.cr.records.map fun r =>
    if r.state = .intake then { r with mass := some (clampReading v), overRange := overRangeOf v, unsteady } else r)
  let s := s.setIntake { s.intake with readings := { s.intake.readings with
    mass := some (clampReading v), overRange := overRangeOf v, unsteady } }
  s.enterRoute

/-- The scale is being read (R104). -/
def State.weighing (s : State) : Bool := s.intake.phase == .weigh && s.intake.weighTimer.isSome

/-- A scale reading: in WEIGH the first steady one is taken, and an unsteady one is kept as the last (R104). -/
def execScaleReading (value : Int) (steady : Bool) (s : State) : Result :=
  takeEvent s fun s =>
    if s.weighing then
      if steady then s.takeValue value false
      else s.setIntake { s.intake with readings := { s.intake.readings with lastReading := some value } }
    else s

/-- The weigh timer expires: the last reading is taken with UNSTEADY, or 0 when none arrived (R104). -/
def execWeighTimerExpiry (s : State) : Result :=
  takeEvent s fun s => if s.weighing then s.takeValue (s.intake.readings.lastReading.getD 0) true else s

/-! ## The route decision -/

/-- The route decision (R36, R106): taken in ROUTE when the job queue has a free place. The model takes it already in the
event that enters ROUTE or frees the place (log 5). -/
def execRouteDecision (s : State) : Result := takeEvent s State.takeRoute

/-! ## The tip -/

/-- The last intake pocket after a tip of a record into pocket p (R88). -/
def Carousel.rememberIntake (c : Carousel) (p : Fin 21) (range : Option RangeRef) : Carousel :=
  if p = 0 then c else { c with lastIntake := some (p, range) }

/-- The intake request leaves the queue and the drop station is freed (R85, R109). -/
def State.freeStation (s : State) : State := s.setQueue (s.pcc.queue.filter fun r => r.source != .intake)

/-- The readings of the drop are cleared (R94, R109, R114). -/
def State.clearReadings (s : State) : State := s.setIntake { s.intake with readings := {} }

/-- Tip completion into the chosen pocket, one event (R109). -/
def State.completeTip (s : State) (r : Record) (p : Fin 21) : State :=
  let s := (s.setHold .none).place r p
  let s := s.freeStation
  let s := s.setPcc (s.pcc.rememberIntake p r.range)
  let s := (s.setIntake { s.intake with tipTimer := .none }).clearReadings
  s.prePositionOrServe.testChute

/-- The drawer-empty report: in TIP the tip is complete, and in every other phase it is ignored (R108, R109). -/
def execTipCompletion (s : State) : Result :=
  takeEvent s fun s =>
    match s.intake.phase, s.intakeRecord, s.intake.readings.chosen with
    | .tip, some r, some p => s.completeTip r p
    | _, _, _ => s

/-- The tip timer expires: the drop is JAMMED (R108). -/
def execTipTimerExpiry (s : State) : Result :=
  takeEvent s fun s => if s.intake.phase = .tip ∧ s.intake.tipTimer.isSome then s.enterJammed else s

/-! ## JAMC -/

/-- A disposition: a pocket 0 to 20, or REMOVED (R111, R165). -/
inductive Disposition where
  | pocket (p : Fin 21)
  | removed
deriving DecidableEq, Repr

/-- The disposition of a code (R165). -/
def dispositionOf (b : BitVec 8) : Option Disposition :=
  if b = 255#8 then some .removed else (pocketOf b).map .pocket

/-- The disposition is a pocket in which the bag does not fit (R73, R111). -/
def State.noRoomFor (s : State) (r : Record) : Disposition → Bool
  | .pocket p => !s.pcc.fits p r.size
  | .removed => false

/-- JAMC answered OK acts on the INTAKE record: it is placed as at a tip with JAMMED cleared (R8, R112), or goes to
STAGED, OUT, with count required and its handover timer (R8, R113). -/
def State.settleJam (s : State) (r : Record) (d : Disposition) : State :=
  match d with
  | .pocket p => (s.update r.receipt fun x => { x with jammed := false }).place r p
  | .removed =>
    (s.update r.receipt fun x =>
      { x with state := .staged, location := .out, countRequired := true, jammed := false }).startHandover r.receipt

/-- The sequencer leaves JAMMED: the readings are cleared and the conditions tested (R114). -/
def State.leaveJammed (s : State) : State := s.clearReadings.testChute

/-- JAMC (R111 to R114). A sequencer in JAMMED has a record in INTAKE (R110, R116); in a state without one, which no run
reaches, JAMC is refused NOT_FOUND (log 19). -/
def execJamc (id : BitVec 24) (disposition : BitVec 8) (s : State) : Result :=
  takeRequest s .branch ReqName.jamc.code fun s =>
    match dispositionOf disposition with
    | .none => refuse s .badValue
    | some d =>
      if s.intake.phase ≠ .jammed then refuse s .badState
      else if s.role id ≠ some .supervisor then refuse s .deny
      else match s.intakeRecord with
        | .none => refuse s .notFound
        | some r =>
          if s.noRoomFor r d then refuse s .noRoom
          else ok (s.settleJam r d).leaveJammed ((s.settleJam r d).leaveJammed.summaryOf r.receipt)

/-! ## The grace timer -/

/-- A GRACE record's timer expires: it goes to HELD with mark NONE, and GRACE_EXPIRED is raised (R9). -/
def State.expireGrace (s : State) (n : Nat) : State :=
  if (s.record n).any fun r => r.state == .grace && r.grace.isSome then
    (s.update n fun r => { r with state := .held, grace := .none }).raise .graceExpired
  else s

/-- The grace timer of a record expires (R9). -/
def execGraceExpiry (receipt : Nat) (s : State) : Result := takeEvent s fun s => s.expireGrace receipt

end Sys2Proof.Machine
end

