-- ==== Sys2Proof/Machine/Handover.lean ====
section
/-! DEFINITION. Release and handover: the permit (R137), the session (R139 to R142), retrieval through the hatch (R143
to R150), the handover timers (R153) and confirmation (R155, R156). -/

namespace Sys2Proof.Machine

/-! ## The permit -/

/-- WNDW (R137). -/
def execWndw (field : BitVec 8) (s : State) : Result :=
  takeRequest s .branch ReqName.wndw.code fun s =>
    match flagOf field with
    | .none => refuse s .badValue
    | some flag =>
      let t := s.setRc { s.rc with wndw := flag }
      ok (s.afterPermit t) [yesNo flag, yesNo t.permit]

/-- The time-lock contact opens or closes (R137). -/
def execTimeLockContact (closed : Bool) (s : State) : Result :=
  takeEvent s fun s => s.afterPermit (s.setPins { s.pins with timeLockClosed := closed })

/-! ## The session -/

/-- The idle timer of an OPEN session restarts at the full idle interval (R141). -/
def State.restartIdle (s : State) : State :=
  match s.rc.session with
  | .opened _ => s.setRc { s.rc with session := .opened s.rc.idleInterval }
  | .closed | .pairing _ _ => s

/-- A panel request: whatever its outcome, it restarts the idle timer of an OPEN session (R141). -/
def takePanel (s : State) (name : BitVec 32) (owner : State → State × Answer) : Result :=
  takeRequest s .panel name fun s => owner s.restartIdle

/-- The session written. -/
def State.setSession (s : State) (x : Session) : State := s.setRc { s.rc with session := x }

/-- Whether a staff id has the role SUPERVISOR (R135). -/
def State.isSupervisor (s : State) (id : BitVec 24) : Bool := s.role id == some .supervisor

/-- CRED in each session state (R139, R140, R141). -/
def State.credential (s : State) (id : BitVec 24) : State × Answer :=
  match staffIdOf id, s.rc.session with
  | .none, _ => refuse s .badValue
  | some n, .closed =>
    if !s.permit then refuse s .badState
    else if (s.role id).isNone then refuse s .deny
    else
      let t := s.setSession (.pairing n s.rc.pairingInterval)
      ok t [t.rc.session.code]
  | some n, .pairing first _ =>
    if (s.role id).isNone then refuse s .deny
    else if n = first then refuse s .same
    else if !s.isSupervisor id && !s.isSupervisor (BitVec.ofNat 24 first) then refuse s .deny
    else
      let t := s.setSession (.opened s.rc.idleInterval)
      ok t [t.rc.session.code]
  | some _, .opened _ => refuse s .badState

/-- CRED (R139 to R141). -/
def execCred (id : BitVec 24) (s : State) : Result := takePanel s ReqName.cred.code fun s => s.credential id

/-- PCLS (R142). -/
def execPcls (s : State) : Result :=
  takePanel s ReqName.pcls.code fun s =>
    if s.rc.session = .closed then refuse s .badState else ok s.closeSession

/-- The pairing timer expires (R140). -/
def execPairingExpiry (s : State) : Result :=
  takeEvent s fun s =>
    match s.rc.session with
    | .pairing _ _ => s.setSession .closed
    | .closed | .opened _ => s

/-- The idle timer expires (R141). -/
def execIdleExpiry (s : State) : Result :=
  takeEvent s fun s =>
    match s.rc.session with
    | .opened _ => s.leaveOpen
    | .closed | .pairing _ _ => s

/-! ## Retrieval -/

/-- The session is OPEN (R138). -/
def State.sessionOpen (s : State) : Bool :=
  match s.rc.session with
  | .opened _ => true
  | .closed | .pairing _ _ => false

/-- The release request for pocket q: its target brings q to the hatch (R79, R83). -/
def releaseRequest (q : Fin 21) : PosRequest where
  source := .release
  target := q + 10
  pocket := q

/-- PRTV (R143): the reply counts the release requests as the request enters the queue (log 18). -/
def execPrtv (pocket : BitVec 8) (s : State) : Result :=
  takePanel s ReqName.prtv.code fun s =>
    match pocketOf pocket with
    | .none => refuse s .badValue
    | some q =>
      if !s.sessionOpen then refuse s .badState
      else if s.pcc.drum = .fault then refuse s .badState
      else if Config.releasePlaces ≤ s.releaseCount then refuse s .busy
      else ok (s.enqueue (releaseRequest q)) [byte (s.releaseCount + 1)]

/-- The hatch-shut sensor reads open (R87, R90, R144): an unlocked hatch is opened; with the hatch locked the interlock is
FORCED, a fault of a drum that turns, is about to turn, or searches. -/
def State.hatchOpens (s : State) : State :=
  let s := s.setPins { s.pins with hatchShut := false }
  match s.rc.hatch with
  | .unlocked => s.setRc { s.rc with hatch := .opened, unopenedTimer := .none }
  | .opened => s
  | .locked =>
    match s.pcc.drum with
    | .settle _ | .moving _ _ | .homing (some _) => s.carouselFault
    | .idle | .homing .none | .fault => s

/-- The hatch-shut sensor reads shut (R87, R145): an opened hatch is locked; with the hatch locked the interlock is
SECURE. -/
def State.hatchShuts (s : State) : State :=
  let s := s.setPins { s.pins with hatchShut := true }
  match s.rc.hatch with
  | .unlocked => s
  | .opened => s.lockHatch.interlockSecured
  | .locked => s.interlockSecured

/-- The hatch-shut sensor (R87, R93, R144, R145). -/
def execHatchShutSensor (shut : Bool) (s : State) : Result :=
  takeEvent s fun s => if shut then s.hatchShuts else s.hatchOpens

/-- The unopened timer expires: a hatch not opened is locked, and the arbiter serves (R145, R84). -/
def execUnopenedTimerExpiry (s : State) : Result :=
  takeEvent s fun s => if s.rc.unopenedTimer.isSome then s.lockUnopened.serve else s

/-! ## Hatch scans -/

/-- A lamp is lit, which puts out the other (R146). -/
def State.light (s : State) (l : Lamp) : State := s.setRc { s.rc with lamp := some l }

/-- After a staging from pocket 0 the chute's conditions are tested (R96). -/
def State.afterStaging (s : State) (q : Fin 21) : State := if q = 0 then s.retest else s

/-- The read is of the tag last staged from the open pocket, less than 2 s after (R146). -/
def State.guarded (s : State) (t : Tag) (atMs : Nat) : Bool :=
  match s.rc.guardMark with
  | .none => false
  | some g => g.tag == t && decide (atMs < g.atMs + Config.guardMs)

/-- The second and third steps of a scan: the claiming record is returned, or the scan is refused (R148, R149). -/
def State.scanClaimant (s : State) (t : Tag) (q : Fin 21) : State :=
  match s.claimant t with
  | .none => s.light .refuse
  | some r =>
    match r.state with
    | .staged | .overdue => if s.pcc.fits q r.size then (s.giveBack r q).light .accept else s.light .refuse
    | .held => (s.raise .wrongPocketScan).light .refuse
    | .grace | .advised | .missing | .intake => s.light .refuse

/-- A good read of a tag with the pocket q open (R146 to R149). -/
def State.scan (s : State) (t : Tag) (atMs : Nat) (q : Fin 21) : State :=
  if s.guarded t atMs then s.light .accept
  else match s.firstHeld q fun r => r.tag == some t with
    | some r =>
      let s := s.stage r q
      ((s.setRc { s.rc with guardMark := some { tag := t, atMs } }).light .accept).afterStaging q
    | .none => s.scanClaimant t q

/-- A read taken from the hatch reader's holding slot (R146). A good read with a pocket open restarts the idle timer
(R141, log 17). -/
def State.hatchRead (s : State) (x : TagRead) (atMs : Nat) : State :=
  match x with
  | .bad => s
  | .good t =>
    match s.rc.openPocket with
    | .none => if isTag t then s.light .refuse else s
    | some q => if isTag t then s.restartIdle.scan t atMs q else s.restartIdle

/-- The release controller takes the read that waits at the hatch reader, if any (R101, R146). -/
def execHatchScan (atMs : Nat) (s : State) : Result :=
  takeEvent s fun s =>
    match s.rc.reader.holding with
    | .none => s
    | some x => (s.setRc { s.rc with reader := { s.rc.reader with holding := .none } }).hatchRead x atMs

/-- A lamp goes out 1 s after it was lit by a read (R146). A lamp that NOTG lit (R150) goes out in the same way, which is
DEDUCED in log 25. -/
def execLampExpiry (s : State) : Result := takeEvent s fun s => s.setRc { s.rc with lamp := .none }

/-- NOTG (R150). -/
def execNotg (receipt : BitVec 16) (s : State) : Result :=
  takePanel s ReqName.notg.code fun s =>
    if receipt = 0#16 then refuse s .badValue
    else if !s.sessionOpen then refuse s .badState
    else match s.rc.openPocket with
      | .none => refuse s .badState
      | some q =>
        match s.firstHeld q fun r => r.receipt == receipt.toNat && r.tag.isNone with
        | .none => refuse s .notFound
        | some r => ok (((s.stage r q).light .accept).afterStaging q) [yesNo (countRequired s.rc.policy r)]

/-! ## The handover timers and confirmation -/

/-- A STAGED record's handover timer expires: it is OVERDUE, has no timer, and OVERDUE is raised (R153). -/
def State.expireHandover (s : State) (n : Nat) : State :=
  if (s.record n).any (fun r => r.state == .staged) && s.rc.handoverTimers.any (fun h => h.1 == n) then
    ((s.update n fun r => { r with state := .overdue }).stopHandover n).raise .overdue
  else s

/-- The handover timer of a record expires (R153). -/
def execHandoverExpiry (receipt : Nat) (s : State) : Result := takeEvent s fun s => s.expireHandover receipt

/-- The ids of a CNFM are a dual count: two different ids, at least one a SUPERVISOR (R155). -/
def State.dualIds (s : State) (ids : List (BitVec 24)) : Bool :=
  match ids with
  | [a, b] => a != b && (s.isSupervisor a || s.isSupervisor b)
  | _ => false

/-- The checks of CNFM, in their order, and the retirement (R155, R156). -/
def State.confirm (s : State) (receipt counted : Nat) (ids : List (BitVec 24)) : State × Answer :=
  if receipt = 0 ∨ Config.declaredLimit < counted ∨ ¬(ids.length = 1 ∨ ids.length = 2) ∨
      ids.any (fun id => (staffIdOf id).isNone) then refuse s .badValue
  else match s.record receipt with
    | .none => refuse s .notFound
    | some r =>
      if r.state ≠ .staged ∧ r.state ≠ .overdue then refuse s .badState
      else if ids.any fun id => (s.role id).isNone then refuse s .deny
      else if r.countRequired && !s.dualIds ids then refuse s .second
      else ((s.remove receipt).retest,
            { word := if r.state = .overdue then .late else .ok, data := r.retirement counted })

/-- CNFM (R155, R156). -/
def execCnfm (receipt : BitVec 16) (counted : BitVec 40) (ids : List (BitVec 24)) (s : State) : Result :=
  takeRequest s .branch ReqName.cnfm.code fun s => s.confirm receipt.toNat counted.toNat ids

end Sys2Proof.Machine
end

