-- ==== Sys2Proof/Machine/Lookups.lean ====
section
/-! DEFINITION. The lookups: READ, FTAG, LCUS, LSTA, LPKT (R21 to R24) and PKTS (R78, R169). None changes a record. -/

namespace Sys2Proof.Machine

/-- READ (R21). -/
def execRead (receipt : BitVec 16) (s : State) : Result :=
  takeRequest s .branch ReqName.read.code fun s =>
    if receipt = 0#16 then refuse s .badValue
    else match s.record receipt.toNat with
      | .none => refuse s .notFound
      | some r => ok s r.summary

/-- FTAG (R22). -/
def execFtag (tag : Tag) (s : State) : Result :=
  takeRequest s .branch ReqName.ftag.code fun s =>
    if !isTag tag then refuse s .badValue
    else match s.claimant tag with
      | .none => refuse s .notFound
      | some r => ok s r.summary

/-- The receipts of the records that pass a test, not below a start receipt, in ascending order (R23). -/
def State.receiptsFrom (s : State) (start : Nat) (test : Record → Bool) : List Nat :=
  (s.cr.records.filter fun r => test r && decide (start ≤ r.receipt)).map Record.receipt

/-- At most 16 receipts, and the lowest matching one not returned (R23). -/
def receiptList (all : List Nat) : List Byte := listReply (all.take 16) all[16]?

/-- LCUS (R23). -/
def execLcus (customer : BitVec 24) (start : BitVec 16) (s : State) : Result :=
  takeRequest s .branch ReqName.lcus.code fun s =>
    if start = 0#16 then refuse s .badValue
    else ok s (receiptList (s.receiptsFrom start.toNat fun r =>
      decide (r.advice.map Advice.customer = some customer.toNat)))

/-- LSTA (R23). -/
def execLsta (state : BitVec 8) (start : BitVec 16) (s : State) : Result :=
  takeRequest s .branch ReqName.lsta.code fun s =>
    match recStateOf state with
    | .none => refuse s .badValue
    | some x =>
      if start = 0#16 then refuse s .badValue
      else ok s (receiptList (s.receiptsFrom start.toNat fun r => r.state == x))

/-- LPKT (R24). -/
def execLpkt (pocket start : BitVec 8) (s : State) : Result :=
  takeRequest s .branch ReqName.lpkt.code fun s =>
    match pocketOf pocket with
    | .none => refuse s .badValue
    | some p =>
      if 23 < start.toNat then refuse s .badValue
      else
        let rest := s.cr.lists[p].drop start.toNat
        ok s (listReply (rest.take 16) (if 16 < rest.length then some (start.toNat + 16) else .none))

/-- PKTS (R78, R169). -/
def execPkts (pocket : BitVec 8) (s : State) : Result :=
  takeRequest s .branch ReqName.pkts.code fun s =>
    match pocketOf pocket with
    | .none => refuse s .badValue
    | some p =>
      let x := s.pcc.pockets[p]
      ok s ([byte p.val, byte x.capacity, byte x.used, byte (s.pcc.heldUnits p), byte (s.pcc.freeUnits p),
             (s.pcc.classOf p).code, byte x.bags] ++ be 6 x.declared ++ be 3 x.mass ++
            [s.pcc.drum.code, codeOr (fun k : Fin 21 => byte k.val) 255#8 s.pcc.position, byte s.pcc.queue.length,
             yesNo s.stationHeld])

end Sys2Proof.Machine
end

