-- ==== Sys2Proof/Machine/Night.lean ====
section
/-! DEFINITION. The night and the register as a whole: NOPN and NCLS (R19, R98, R132), WIPE (R29), ACKL (R28), NTOT
(R169). -/

namespace Sys2Proof.Machine

/-- NOPN: in DAY the night opens with totals of zero, and the chute's conditions are tested (R19, R98). -/
def execNopn (s : State) : Result :=
  takeRequest s .branch ReqName.nopn.code fun s =>
    match s.cr.night with
    | .night => refuse s .badState
    | .day => ok (State.retest { s with cr := { s.cr with night := .night, totals := {} } })

/-- Every ADVISED record becomes MISSING (R132). -/
def Record.atClose (r : Record) : Record := if r.state = .advised then { r with state := .missing } else r

/-- NCLS: in NIGHT the night closes, every ADVISED record becomes MISSING, and the chute closes unless a drop runs on
(R19, R98, R132). -/
def execNcls (s : State) : Result :=
  takeRequest s .branch ReqName.ncls.code fun s =>
    match s.cr.night with
    | .day => refuse s .badState
    | .night =>
      ok (State.retest { s with cr := { s.cr with night := .day, records := s.cr.records.map Record.atClose } })
        (be 2 (s.cr.records.countP fun r => r.state == .advised))

/-- WIPE removes every record, all of them ADVISED or MISSING then, with their tag index entries (R29). -/
def State.wipe (s : State) : State :=
  { s with
    cr := { s.cr with records := [], tagIndex := [], receiptCounter := 1, totals := {} }
    pcc := { s.pcc with pockets := Vector.ofFn fun p => { capacity := s.pcc.pockets[p].capacity } } }

/-- WIPE (R29): refused while a record is in one of the five custody states; the freed slots may open the chute (R96). -/
def execWipe (s : State) : Result :=
  takeRequest s .branch ReqName.wipe.code fun s =>
    if s.cr.records.any fun r => r.state.inCustody then refuse s .badState else ok s.wipe.retest

/-- ACKL (R28). -/
def execAckl (id : BitVec 24) (s : State) : Result :=
  takeRequest s .branch ReqName.ackl.code fun s =>
    if !s.cr.lossPending then refuse s .badState
    else if s.role id ≠ some .supervisor then refuse s .deny
    else ok (State.retest { s with cr := { s.cr with lossPending := false } })

/-- NTOT (R20, R169). -/
def execNtot (s : State) : Result :=
  takeRequest s .branch ReqName.ntot.code fun s =>
    ok s (be 2 s.cr.totals.bags ++ be 2 s.cr.totals.exceptions ++ be 5 s.cr.totals.declared ++ be 5 s.cr.totals.mass ++
      [yesNo (s.cr.night == .night)])

end Sys2Proof.Machine
end

