-- ==== Sys2Proof/Machine/SettingsRequests.lean ====
section
/-! DEFINITION. The requests that write settings: PCAP (R75), RNGW (R32, R33), RNGA and GENR (R35), DENW (R46, R47),
TOLW (R50), ROST (R136), POLW (R152), TIMW in both forms (R180), SAVE (R181) and its completion (R182). -/

namespace Sys2Proof.Machine

/-- A request that writes a setting is refused BUSY from the taking of SAVE to its completion (R181). -/
def writeSetting (s : State) (name : BitVec 32) (owner : State → State × Answer) : Result :=
  takeRequest s .branch name fun s => if s.isSaving then refuse s .busy else owner s

/-- PCAP (R75). -/
def execPcap (pocket capacity : BitVec 8) (s : State) : Result :=
  writeSetting s ReqName.pcap.code fun s =>
    match storagePocketOf pocket with
    | .none => refuse s .badValue
    | some p =>
      let t := s.setPocket p { s.pcc.pockets[p] with capacity := min Config.maxCapacity capacity.toNat }
      ok t [byte p.val, byte t.pcc.pockets[p].capacity, (t.pcc.classOf p).code]

/-- RNGW (R32, R33): the reply carries the entry as stored. -/
def execRngw (entry : BitVec 8) (field : RangeField) (s : State) : Result :=
  writeSetting s ReqName.rngw.code fun s =>
    match entryOf entry, rangeEntryOf field with
    | some n, some e => ok { s with trt := { s.trt with entries := s.trt.entries.set n e } } (byte n.val :: e.bytes)
    | _, _ => refuse s .badValue

/-- The general-routing flag written, NOT_CONFIGURED cleared, and the chute's conditions tested (R35, R96, R179). -/
def State.chooseRouting (s : State) (general : Bool) : State :=
  State.retest { s with trt := { s.trt with general }, ss := { s.ss with notConfigured := false } }

/-- RNGA (R35). -/
def execRnga (s : State) : Result :=
  writeSetting s ReqName.rnga.code fun s => ok (s.chooseRouting false) [yesNo false]

/-- GENR (R35). -/
def execGenr (s : State) : Result :=
  writeSetting s ReqName.genr.code fun s => ok (s.chooseRouting true) [yesNo true]

/-- Consecutive denomination entries written from a start index on, going from 15 to 0 (R47). -/
def writeDenoms (denoms : Vector Denomination 16) : Fin 16 → List Denomination → Vector Denomination 16
  | _, [] => denoms
  | i, d :: rest => writeDenoms (denoms.set i d) (i + 1) rest

/-- DENW (R46, R47): one entry out of range refuses the whole. -/
def execDenw (start : BitVec 8) (entries : List DenomField) (s : State) : Result :=
  writeSetting s ReqName.denw.code fun s =>
    if 1 ≤ entries.length ∧ entries.length ≤ 16 then
      match denomOf start, allSome (entries.map denominationOf) with
      | some i, some ds =>
        ok { s with wau := { s.wau with denoms := writeDenoms s.wau.denoms i ds } }
          (byte i.val :: byte ds.length :: ds.flatMap Denomination.bytes)
      | _, _ => refuse s .badValue
    else refuse s .badValue

/-- TOLW (R50). -/
def execTolw (set : BitVec 8) (field : TolField) (s : State) : Result :=
  writeSetting s ReqName.tolw.code fun s =>
    match setOf set with
    | .none => refuse s .badValue
    | some n =>
      ok { s with wau := { s.wau with tols := s.wau.tols.set n (toleranceOf field) } }
        (byte n.val :: (toleranceOf field).bytes)

/-- ROST (R136). -/
def execRost (entries : List StaffField) (s : State) : Result :=
  writeSetting s ReqName.rost.code fun s =>
    if s.rc.session ≠ .closed then refuse s .badState
    else match rosterOf entries with
      | .none => refuse s .badValue
      | some roster => ok (s.setRc { s.rc with roster }) (byte roster.length :: roster.flatMap Staff.bytes)

/-- POLW (R152). -/
def execPolw (terms : List TermField) (s : State) : Result :=
  writeSetting s ReqName.polw.code fun s =>
    match policyOf terms with
    | .none => refuse s .badValue
    | some policy => ok (s.setRc { s.rc with policy }) (byte policy.length :: policy.flatMap PolicyTerm.bytes)

/-- The 21 bytes of data of either form of TIMW (R180). -/
def State.timerData (s : State) : List Byte :=
  s.timers.bytes ++ be 2 s.timers.enables.toNat ++
    [s.ss.outcome.code, yesNo (!s.ss.notConfigured), yesNo s.isSaving, s.ss.straps.address.setWidth 8,
     yesNo s.ss.straps.autoloadOff, yesNo s.ss.straps.timeLockEnable]

/-- The written form of TIMW (R180). -/
def execTimw (field : TimerField) (s : State) : Result :=
  writeSetting s ReqName.timw.code fun s =>
    match timersOf field with
    | .none => refuse s .badValue
    | some t => ok (s.withTimers t) (s.withTimers t).timerData

/-- The empty-body form of TIMW (R180). -/
def execTimwRead (s : State) : Result := takeRequest s .branch ReqName.timw.code fun s => ok s s.timerData

/-- SAVE (R181): the copy is taken and SAVING entered; the reply carries the image length. -/
def execSave (s : State) : Result :=
  writeSetting s ReqName.save.code fun s =>
    ok { s with ss := { s.ss with saving := some (s.settings.image s.ss.saves), saves := s.ss.saves + 1 } }
      (be 2 imageLength)

/-- What the EEPROM holds when a save ends: all its writes made, and the bytes that it holds otherwise (R182, log 13). -/
def savedMemory (m : Memory) (copy : List Byte) (differs : List (Nat × Byte)) : Memory :=
  (m.writeAll (saveWrites copy)).writeAll (differs.filter fun d => decide (d.1 < imageLength))

/-- The completion of a save (R182): SAVE_DONE when the EEPROM answers and reads back as the copy, SETTINGS_FAULT
otherwise; the store is IDLE again. In IDLE there is no save to complete. -/
def State.completeSave (s : State) (answers : Bool) (differs : List (Nat × Byte)) : State :=
  match s.ss.saving with
  | .none => s
  | some copy =>
    let m := savedMemory s.ss.eeprom copy differs
    let s := { s with ss := { s.ss with saving := .none, eeprom := m } }
    if answers && Memory.readMany m 0 imageLength == copy then s.raise .saveDone else s.raise .settingsFault

/-- The completion of a save (R182). -/
def execSaveCompletion (answers : Bool) (differs : List (Nat × Byte)) (s : State) : Result :=
  takeEvent s fun s => s.completeSave answers differs

end Sys2Proof.Machine
end

