-- ==== Sys2Proof/Machine/Status.lean ====
section
/-! DEFINITION. The status flags and the clock: STAT (R172), CLRS (R173), TIME and the clock's tick (R175). -/

namespace Sys2Proof.Machine

/-- STAT (R172). -/
def execStat (s : State) : Result := takeRequest s .branch ReqName.stat.code fun s => (s, s.statusAnswer)

/-- CLRS (R173). -/
def execClrs (codes : List (BitVec 8)) (s : State) : Result :=
  takeRequest s .branch ReqName.clrs.code fun s =>
    if 1 ≤ codes.length ∧ codes.length ≤ 16 then
      match allSome (codes.map flagPlaceOf) with
      | .none => refuse s .badValue
      | some places =>
        let t := s.withFlags (clearFlags s.ls.flags places)
        (t, t.statusAnswer)
    else refuse s .badValue

/-- The clock written (R175). -/
def State.setClock (s : State) (c : Option Nat) : State := { s with ls := { s.ls with clock := c } }

/-- TIME (R175). -/
def execTime (seconds : BitVec 24) (s : State) : Result :=
  takeRequest s .branch ReqName.time.code fun s =>
    if 86399 < seconds.toNat then refuse s .badValue
    else ok (s.setClock (some seconds.toNat)) (be 3 seconds.toNat)

/-- A set clock counts on by one second and goes from 86,399 to 0 (R175). -/
def execClockTick (s : State) : Result :=
  takeEvent s fun s => s.setClock (s.ls.clock.map fun c => if 86399 ≤ c then 0 else c + 1)

end Sys2Proof.Machine
end

