-- ==== Sys2Proof/Machine/Lines.lean ====
section
/-! DEFINITION. The two lines (R158 to R164): bytes taken by the receivers, a completed frame checked and its request
taken, gaps, and the end of a reply. -/

namespace Sys2Proof.Machine

/-- The request a frame carries is taken and handed to its owner (R162, R163). What no frame carries has no effect here. -/
def runRequest (i : Instr) (s : State) : Result :=
  match i with
  | .advs tag customer declared lines => execAdvs tag customer declared lines s
  | .wdrw tag => execWdrw tag s
  | .retr tag => execRetr tag s
  | .nopn => execNopn s
  | .ncls => execNcls s
  | .read receipt => execRead receipt s
  | .ftag tag => execFtag tag s
  | .lcus customer start => execLcus customer start s
  | .lsta state start => execLsta state start s
  | .lpkt pocket start => execLpkt pocket start s
  | .pkts pocket => execPkts pocket s
  | .ntot => execNtot s
  | .stat => execStat s
  | .clrs codes => execClrs codes s
  | .cnfm receipt counted ids => execCnfm receipt counted ids s
  | .wndw field => execWndw field s
  | .jamc id disposition => execJamc id disposition s
  | .home id => execHome id s
  | .ackl id => execAckl id s
  | .pcap pocket capacity => execPcap pocket capacity s
  | .rngw entry field => execRngw entry field s
  | .rnga => execRnga s
  | .genr => execGenr s
  | .denw start entries => execDenw start entries s
  | .tolw set field => execTolw set field s
  | .rost entries => execRost entries s
  | .polw terms => execPolw terms s
  | .timw field => execTimw field s
  | .timwRead => execTimwRead s
  | .time seconds => execTime seconds s
  | .save => execSave s
  | .wipe => execWipe s
  | .cred id => execCred id s
  | .prtv pocket => execPrtv pocket s
  | .notg receipt => execNotg receipt s
  | .pcls => execPcls s
  | .saveCompletion _ _ | .frameRejected _ _ | .frameGap _ | .replyEnd _ | .resetHold | .restart _ _ _ _ _
  | .drawerOpened | .drawerShut _ _ | .drawerTimerExpiry | .tagReadComplete _ _ | .drawerReadTaken
  | .tagWindowExpiry | .scaleReading _ _ | .weighTimerExpiry | .routeDecision | .jobStart | .jobCompletion
  | .carouselServe | .settleExpiry | .encoderStep _ | .arrivalTimerExpiry | .referenceMark | .homingTimerExpiry
  | .hatchShutSensor _ | .unopenedTimerExpiry | .tipCompletion | .tipTimerExpiry | .hatchScan _ | .lampExpiry
  | .graceExpiry _ | .handoverExpiry _ | .pairingExpiry | .idleExpiry | .timeLockContact _ | .clockTick
  | .lineByteReceived _ _ => .next s

/-- A frame is complete: the first row of R162 whose condition holds decides. -/
def checkFrame (l : Line) (f : Frame) (s : State) : Result :=
  if s.address l ≠ some f.address then .next s
  else if f.crc ≠ crc16 (frameBytes f.address f.name f.body) then .next s
  else match decodeRequest l f.name f.body with
    | .unknownName => .next (s.answer l f.name { word := .unknown })
    | .wrongSize => .next (s.answer l f.name { word := .badValue })
    | .request i => runRequest i s

/-- The receiver of a line written. -/
def State.setReceiver (s : State) (l : Line) (x : Receiver) : State := s.setLine l { s.line l with receiver := x }

/-- The frame made of the bytes taken after the start byte (R159). -/
def frameOf (bytes : List Byte) : Frame where
  address := byteAt bytes 0
  name := field 32 (slice bytes 2 4)
  body := slice bytes 6 (bytes.length - 8)
  crc := field 16 (slice bytes (bytes.length - 2) 2)

/-- A byte taken in FRAME is stored; a length byte out of range ends the frame at that byte, and the last CRC byte
completes it (R160). -/
def frameByte (l : Line) (bytes : List Byte) (s : State) : Result :=
  if bytes.length = 2 ∧ ((byteAt bytes 1).toNat < 4 ∨ 250 < (byteAt bytes 1).toNat) then .next (s.setReceiver l .hunt)
  else if 2 ≤ bytes.length ∧ bytes.length = (byteAt bytes 1).toNat + 4 then
    checkFrame l (frameOf bytes) (s.setReceiver l .hunt)
  else .next (s.setReceiver l (.frame bytes))

/-- LINE_BYTE_RECEIVED (R160, R163): the receiver takes no byte while its line's reply is being sent. -/
def execLineByteReceived (line : Line) (byte : Byte) (s : State) : Result :=
  whenRunning s fun s =>
    if s.replying line then .next s
    else match (s.line line).receiver with
      | .hunt => .next (if byte = 0xA5#8 then s.setReceiver line (.frame []) else s)
      | .frame bytes => frameByte line (bytes ++ [byte]) s

/-- FRAME_REJECTED (R162): a frame has been completed on a line; the receiver is in HUNT, and the rows of R162 decide, the
last of which takes the request (log 20). While a reply is being sent no frame is completed (R163). -/
def execFrameRejected (line : Line) (frame : Frame) (s : State) : Result :=
  whenRunning s fun s =>
    if s.replying line then .next s else checkFrame line frame (s.setReceiver line .hunt)

/-- FRAME_GAP (R160): a silence inside a frame discards it. -/
def execFrameGap (line : Line) (s : State) : Result := takeEvent s fun s => s.setReceiver line .hunt

/-- REPLY_END (R163): the last byte of the reply has been sent, and the receiver takes bytes again, in HUNT. -/
def execReplyEnd (line : Line) (s : State) : Result :=
  takeEvent s fun s => if s.replying line then s.setLine line {} else s

end Sys2Proof.Machine
end

