-- ==== Sys2Proof/Machine/StartUp.lean ====
section
/-! DEFINITION. RESET_HOLD and RESTART (R183, R26, R27, R61, R116, R178). -/

namespace Sys2Proof.Machine

/-- While RESET_N is held every output is at rest: the attention output is released, and both lines are not driven, so
that a reply under way ends unsent (R163, R174, R183). The drawer, hatch, tip and drive outputs follow from
`resetHeld`. DESIGN CHOICE (log 24): a lamp of the hatch reader keeps its state while RESET_N is held, since R183 names the
lamps among no outputs at rest. -/
def execResetHold (s : State) : Result :=
  .next { s with resetHeld := true, ls := { s.ls with branch := {}, panel := {}, attention := false } }

/-- What the EEPROM holds after a restart: a save under way had made so many of its writes (R182). -/
def eepromAfter (x : Settings) (saveWrites' : Nat) : Memory :=
  match x.saving with
  | .none => x.eeprom
  | some copy => Memory.writeAll x.eeprom ((saveWrites copy).take saveWrites')

/-- Everything a restart sets before the settings are loaded and the register is looked at: the straps are latched, and
the state that is kept neither in the retained store nor in the EEPROM takes its values after restart (R52, R71, R79,
R83, R88, R116, R138, R144, R146, R160, R171, R175, R176, R181). DESIGN CHOICE (log 23): the last direction is unknown until
homing sets it. DESIGN CHOICE (log 3): neither lamp of the hatch reader is lit. -/
def State.cold (s : State) (straps : Straps) (levels : Levels) (saveWrites' : Nat) : State :=
  { s with
    wau := { s.wau with queue := [], working := .none }
    pcc := { s.pcc with hold := .none, drum := .homing .none, position := .none, lastDir := .none, queue := []
                        lastIntake := .none }
    intake := { phase := .closed }
    rc := { roster := s.rc.roster, policy := s.rc.policy, handoverInterval := s.rc.handoverInterval
            pairingInterval := s.rc.pairingInterval, idleInterval := s.rc.idleInterval }
    ls := { flags := Vector.replicate 16 {}, enables := s.ls.enables, attention := false }
    ss := { s.ss with straps, saving := .none, eeprom := eepromAfter s.ss saveWrites' }
    pins := levels
    resetHeld := false }

/-- The first step of start-up: the settings are loaded, setting NOT_CONFIGURED or not (R178, R179). -/
def State.loadImage (s : State) (answers : Bool) : State :=
  let x := loadSettings s.ss.straps.autoloadOff answers (Memory.readMany s.ss.eeprom 0 imageLength)
  let s := { s with ss := { s.ss with outcome := x.1, notConfigured := decide (x.1 = LoadOutcome.blank ∨ x.1 = LoadOutcome.bad) } }
  s.install x.2

/-- The restart effect on one record of a valid store (R26). -/
def Record.restarted (r : Record) (graceInterval : Nat) : Record :=
  match r.state with
  | .intake => { r with interrupted := true, jammed := true }
  | .grace => { r with grace := some graceInterval }
  | .advised | .held | .staged | .overdue | .missing => r

/-- The second step: a valid store is kept with the restart effects (R26), and an invalid one starts empty with the
loss-pending mark set, pocket totals included (R27). -/
def State.restore (s : State) (lost : Bool) : State :=
  if lost then
    { s with
      cr := { Register.lost with graceInterval := s.cr.graceInterval }
      pcc := { s.pcc with pockets := Vector.ofFn fun p => { capacity := s.pcc.pockets[p].capacity } } }
  else s.setRecords (s.cr.records.map fun r => r.restarted s.cr.graceInterval)

/-- The third step: a handover timer at the full interval for each STAGED record (R26, R153). -/
def State.restartHandovers (s : State) : State :=
  s.setRc { s.rc with handoverTimers :=
    (s.cr.records.filter fun r => r.state == .staged).map fun r => (r.receipt, s.rc.handoverInterval) }

/-- The fourth step: a job for each PENDING record in ascending receipt order (R61). -/
def State.refill (s : State) : State :=
  (s.cr.records.filter fun r => r.verdict == some .pending).foldl (fun s r => s.queueJob r.receipt r.tag) s

/-- The fifth step: the flags whose causes stand are raised (R171, R183). -/
def State.startUpFlags (s : State) : State :=
  ((s.raiseWhen s.cr.lossPending .storeLost).raiseWhen (s.ss.outcome == .bad) .settingsFault).raiseWhen
    s.intakeRecord.isSome .jam

/-- The intake sequencer at start-up (R116): JAMMED with an INTAKE record, else CLOSED or SHUT, waiting for the end of
homing (R117). -/
def State.startIntake (s : State) : State :=
  s.setIntake { s.intake with
    phase := if s.intakeRecord.isSome then .jammed else if s.cr.night = .day then .closed else .shut
    takeUp := s.intakeRecord.isNone }

/-- The second part follows at once: the search begins when the hatch-shut sensor reads shut (R93, R183, log 8). -/
def State.secondPart (s : State) : State := if s.pins.hatchShut then s.interlockSecured else s

/-- RESTART: the five steps of the first part of start-up, and what follows at once (R183). -/
def execRestart (straps : Straps) (levels : Levels) (backupLost eepromAnswers : Bool) (saveWrites' : Nat)
    (s : State) : Result :=
  let lost := backupLost || !s.cr.storeValid
  .next (((((((s.cold straps levels saveWrites').loadImage eepromAnswers).restore lost).restartHandovers).refill).startUpFlags).startIntake).secondPart

end Sys2Proof.Machine
end

