-- ==== Sys2Proof/Machine/Weighing.lean ====
section
/-! DEFINITION. The events of the job queue: a start (R56) and a completion (R58). -/

namespace Sys2Proof.Machine

/-- The WAU starts what it can, and a free place lets a waiting drop be routed in the same event (R54, R56). -/
def State.workOn (s : State) : State := s.startWau.takeRoute

/-- JOB_START (R56): a WAU that is IDLE starts the head of its queue. The model does so already in the event that brings
a job to the head (log 5). -/
def execJobStart (s : State) : Result := takeEvent s State.workOn

/-- JOB_COMPLETION (R58): the result is written or discarded, the job leaves the queue, the next starts, and a drop that
waits in ROUTE takes the freed place (R54). -/
def execJobCompletion (s : State) : Result :=
  takeEvent s fun s => if s.wau.working.isSome then s.finishHead.workOn else s

end Sys2Proof.Machine
end

