-- ==== Sys2Proof/Machine/Dispatch.lean ====
section
/-! DEFINITION. The dispatch: one arm per command of the opcode table, in its order. -/

namespace Sys2Proof.Machine

def exec (i : Instr) (s : State) : Host.Outcome State Fault Refusal :=
  match i with
  | .advs tag customer declared lines => Sys2Proof.Machine.execAdvs tag customer declared lines s
  | .wdrw tag => Sys2Proof.Machine.execWdrw tag s
  | .retr tag => Sys2Proof.Machine.execRetr tag s
  | .nopn => Sys2Proof.Machine.execNopn s
  | .ncls => Sys2Proof.Machine.execNcls s
  | .read receipt => Sys2Proof.Machine.execRead receipt s
  | .ftag tag => Sys2Proof.Machine.execFtag tag s
  | .lcus customer start => Sys2Proof.Machine.execLcus customer start s
  | .lsta state start => Sys2Proof.Machine.execLsta state start s
  | .lpkt pocket start => Sys2Proof.Machine.execLpkt pocket start s
  | .pkts pocket => Sys2Proof.Machine.execPkts pocket s
  | .ntot => Sys2Proof.Machine.execNtot s
  | .stat => Sys2Proof.Machine.execStat s
  | .clrs codes => Sys2Proof.Machine.execClrs codes s
  | .cnfm receipt counted ids => Sys2Proof.Machine.execCnfm receipt counted ids s
  | .wndw field => Sys2Proof.Machine.execWndw field s
  | .jamc id disposition => Sys2Proof.Machine.execJamc id disposition s
  | .home id => Sys2Proof.Machine.execHome id s
  | .ackl id => Sys2Proof.Machine.execAckl id s
  | .pcap pocket capacity => Sys2Proof.Machine.execPcap pocket capacity s
  | .rngw entry field => Sys2Proof.Machine.execRngw entry field s
  | .rnga => Sys2Proof.Machine.execRnga s
  | .genr => Sys2Proof.Machine.execGenr s
  | .denw start entries => Sys2Proof.Machine.execDenw start entries s
  | .tolw set field => Sys2Proof.Machine.execTolw set field s
  | .rost entries => Sys2Proof.Machine.execRost entries s
  | .polw terms => Sys2Proof.Machine.execPolw terms s
  | .timw field => Sys2Proof.Machine.execTimw field s
  | .timwRead => Sys2Proof.Machine.execTimwRead s
  | .time seconds => Sys2Proof.Machine.execTime seconds s
  | .save => Sys2Proof.Machine.execSave s
  | .saveCompletion answers differs => Sys2Proof.Machine.execSaveCompletion answers differs s
  | .wipe => Sys2Proof.Machine.execWipe s
  | .cred id => Sys2Proof.Machine.execCred id s
  | .prtv pocket => Sys2Proof.Machine.execPrtv pocket s
  | .notg receipt => Sys2Proof.Machine.execNotg receipt s
  | .pcls => Sys2Proof.Machine.execPcls s
  | .frameRejected line frame => Sys2Proof.Machine.execFrameRejected line frame s
  | .frameGap line => Sys2Proof.Machine.execFrameGap line s
  | .replyEnd line => Sys2Proof.Machine.execReplyEnd line s
  | .resetHold => Sys2Proof.Machine.execResetHold s
  | .restart straps levels backupLost eepromAnswers saveWrites => Sys2Proof.Machine.execRestart straps levels backupLost eepromAnswers saveWrites s
  | .drawerOpened => Sys2Proof.Machine.execDrawerOpened s
  | .drawerShut bagPresent beams => Sys2Proof.Machine.execDrawerShut bagPresent beams s
  | .drawerTimerExpiry => Sys2Proof.Machine.execDrawerTimerExpiry s
  | .tagReadComplete reader read => Sys2Proof.Machine.execTagReadComplete reader read s
  | .drawerReadTaken => Sys2Proof.Machine.execDrawerReadTaken s
  | .tagWindowExpiry => Sys2Proof.Machine.execTagWindowExpiry s
  | .scaleReading value steady => Sys2Proof.Machine.execScaleReading value steady s
  | .weighTimerExpiry => Sys2Proof.Machine.execWeighTimerExpiry s
  | .routeDecision => Sys2Proof.Machine.execRouteDecision s
  | .jobStart => Sys2Proof.Machine.execJobStart s
  | .jobCompletion => Sys2Proof.Machine.execJobCompletion s
  | .carouselServe => Sys2Proof.Machine.execCarouselServe s
  | .settleExpiry => Sys2Proof.Machine.execSettleExpiry s
  | .encoderStep dir => Sys2Proof.Machine.execEncoderStep dir s
  | .arrivalTimerExpiry => Sys2Proof.Machine.execArrivalTimerExpiry s
  | .referenceMark => Sys2Proof.Machine.execReferenceMark s
  | .homingTimerExpiry => Sys2Proof.Machine.execHomingTimerExpiry s
  | .hatchShutSensor shut => Sys2Proof.Machine.execHatchShutSensor shut s
  | .unopenedTimerExpiry => Sys2Proof.Machine.execUnopenedTimerExpiry s
  | .tipCompletion => Sys2Proof.Machine.execTipCompletion s
  | .tipTimerExpiry => Sys2Proof.Machine.execTipTimerExpiry s
  | .hatchScan atMs => Sys2Proof.Machine.execHatchScan atMs s
  | .lampExpiry => Sys2Proof.Machine.execLampExpiry s
  | .graceExpiry receipt => Sys2Proof.Machine.execGraceExpiry receipt s
  | .handoverExpiry receipt => Sys2Proof.Machine.execHandoverExpiry receipt s
  | .pairingExpiry => Sys2Proof.Machine.execPairingExpiry s
  | .idleExpiry => Sys2Proof.Machine.execIdleExpiry s
  | .timeLockContact closed => Sys2Proof.Machine.execTimeLockContact closed s
  | .clockTick => Sys2Proof.Machine.execClockTick s
  | .lineByteReceived line byte => Sys2Proof.Machine.execLineByteReceived line byte s

end Sys2Proof.Machine
end

