-- ==== Sys2Proof/Safety.lean ====
section
/-! DEFINITION. What the claims speak of: when a line takes a request, the state with its reply, the bytes of a line fed
one by one, and the invariants of the state. -/

namespace Sys2Proof.Safety

open Sys2Proof.Machine

/-! ## Requests and replies -/

/-- The branch link takes requests: the module runs, the last reply has been sent, and the strap gives an address (R158,
R163, R183). -/
def branchIdle (s : State) : Prop :=
  s.resetHeld = false ∧ s.ls.branch.reply = none ∧ s.ss.straps.address ≠ 0#5

/-- The panel line takes requests (R163, R183). -/
def panelIdle (s : State) : Prop := s.resetHeld = false ∧ s.ls.panel.reply = none

/-- The state with a reply under way on the branch link and its receiver in HUNT; all else as it is (R163, R164). -/
def branchReply (s : State) (r : ReqName) (w : OutcomeWord) (data : List Byte) : State :=
  { s with ls := { s.ls with branch := { receiver := .hunt, reply := some { name := r.code, answer := { word := w, data } } } } }

/-- The same on the panel line. -/
def panelReply (s : State) (r : ReqName) (w : OutcomeWord) (data : List Byte) : State :=
  { s with ls := { s.ls with panel := { receiver := .hunt, reply := some { name := r.code, answer := { word := w, data } } } } }

/-- A list of bytes received on a line one after the other. -/
def feed (l : Line) : List Byte → State → Result
  | [], s => .next s
  | b :: rest, s =>
    match exec (.lineByteReceived l b) s with
    | .next t => feed l rest t
    | .fault f => .fault f
    | .refused r => .refused r

/-- The requests that write a setting (R181). -/
def writesSetting : Instr → Option ReqName
  | .pcap _ _ => some .pcap
  | .rngw _ _ => some .rngw
  | .rnga => some .rnga
  | .genr => some .genr
  | .denw _ _ => some .denw
  | .tolw _ _ => some .tolw
  | .rost _ => some .rost
  | .polw _ => some .polw
  | .timw _ => some .timw
  | .save => some .save
  | _ => none

/-- The four characters of an outcome word (R164). -/
def wordText : OutcomeWord → String
  | .ok => "OK  " | .late => "LATE" | .collide => "COLL" | .busy => "BUSY" | .full => "FULL" | .notFound => "NFND"
  | .badState => "BADS" | .badValue => "BADV" | .deny => "DENY" | .second => "SCND" | .noRoom => "ROOM"
  | .same => "SAME" | .none => "NONE" | .unknown => "UNKN"

/-- The characters of a text, one byte each. -/
def ascii (text : String) : List Byte := text.toList.map fun c => BitVec.ofNat 8 c.toNat

/-- The body size of a request is the one that its fields call for; a body too short to hold its count field is not (R162,
R168, R180). -/
def bodyFits (r : ReqName) (body : List Byte) : Prop :=
  let counts (place each : Nat) : Prop := ∃ n, body[place]? = some n ∧ body.length = place + 1 + each * n.toNat
  match r with
  | .nopn | .ncls | .ntot | .stat | .rnga | .genr | .save | .wipe | .pcls => body.length = 0
  | .pkts | .wndw | .prtv => body.length = 1
  | .read | .lpkt | .pcap | .notg => body.length = 2
  | .lsta | .home | .ackl | .time | .cred => body.length = 3
  | .wdrw | .retr | .ftag | .jamc => body.length = 4
  | .lcus => body.length = 5
  | .tolw => body.length = 19
  | .timw => body.length = 0 ∨ body.length = 15
  | .advs => counts 12 3
  | .clrs => counts 0 1
  | .cnfm => counts 7 3
  | .rngw => counts 11 1
  | .denw => counts 1 6
  | .rost => counts 0 4
  | .polw => counts 0 2

/-! ## Summaries -/

/-- The bytes of the record summary, in the order of its table; a signed field is in two's complement (R165, R166). -/
def summaryLayout (r : Record) : List Byte :=
  let yes (b : Bool) : Byte := if b then 1#8 else 0#8
  (be 2 r.receipt ++ match r.tag with | none => be 4 0 | some t => be 4 t.toNat) ++
  [yes r.claims,
   match r.state with
   | .advised => 1#8 | .intake => 2#8 | .grace => 3#8 | .held => 4#8 | .staged => 5#8 | .overdue => 6#8 | .missing => 7#8,
   match r.mark with | .none => 0#8 | .before => 1#8 | .inGrace => 2#8 | .late => 3#8] ++
  (match r.advice with | none => be 3 0 ++ be 5 0 | some a => be 3 a.customer ++ be 5 a.declared) ++
  [match r.range with | some (.entry n) => BitVec.ofNat 8 n.val | some .general => 8#8 | none => 255#8,
   BitVec.ofNat 8 r.tolSet.val,
   match r.location with | .pocket p => BitVec.ofNat 8 p.val | .drawer => 21#8 | .out => 22#8 | .absent => 255#8,
   match r.nominal with | some p => BitVec.ofNat 8 p.val | none => 0#8,
   match r.cause with
   | none => 0#8 | some .noTag => 1#8 | some .twoTags => 2#8 | some .dupTag => 3#8 | some .noRange => 4#8
   | some .rangeClosed => 5#8 | some .cap => 6#8 | some .noRoom => 7#8 | some .audit => 8#8,
   match r.size with | some n => BitVec.ofNat 8 n | none => 0#8] ++
  (match r.mass with | some m => be 3 m | none => [255#8, 255#8, 255#8]) ++
  [yes r.overRange, yes r.unsteady,
   match r.verdict with
   | none => 0#8 | some .pending => 1#8 | some .inside => 2#8 | some .light => 3#8 | some .heavy => 4#8
   | some .wrong => 5#8,
   yes r.deviation.isSome] ++
  (match r.deviation with | none => be 2 0 | some d => be 2 (d % 65536).toNat) ++
  (match r.valueSum with | some v => be 5 v | none => [255#8, 255#8, 255#8, 255#8, 255#8]) ++
  [yes r.slipMismatch, yes r.countRequired] ++
  (match r.dropTime with | some t => be 3 t | none => [255#8, 255#8, 255#8]) ++
  [yes r.interrupted, yes r.jammed] ++
  match r.advice with
  | none => [0#8]
  | some a => BitVec.ofNat 8 a.lines.length :: a.lines.flatMap fun l => BitVec.ofNat 8 l.denom.val :: be 2 l.count

/-- The bytes of the retirement summary: the record summary, the counted value, and the difference with its mark (R156,
R166). -/
def retirementLayout (r : Record) (counted : Nat) : List Byte :=
  summaryLayout r ++ be 5 counted ++
  match r.advice with
  | none => 0#8 :: be 5 0
  | some a => 1#8 :: be 5 (((counted : Int) - a.declared) % 1099511627776).toNat

/-! ## Parts of the state -/

/-- A record has this receipt and no other record of the register has it (R3). -/
def holds (s : State) (r : Record) : Prop := r ∈ s.cr.records ∧ ∀ x ∈ s.cr.records, x.receipt = r.receipt → x = r

/-- A record claims a tag through the index (R14). -/
def claims (s : State) (t : Tag) (r : Record) : Prop := s.cr.tagIndex.lookup t = some r.receipt ∧ holds s r

/-- No record claims a tag (R14). -/
def unclaimed (s : State) (t : Tag) : Prop := s.cr.tagIndex.lookup t = none

/-- A record is the one in INTAKE (R4). -/
def inIntake (s : State) (r : Record) : Prop :=
  holds s r ∧ r.state = .intake ∧ ∀ x ∈ s.cr.records, x.state = .intake → x = r

/-- The register with one record changed. -/
def changed (s : State) (r : Record) (f : Record → Record) : List Record :=
  s.cr.records.map fun x => if x.receipt = r.receipt then f x else x

/-- The register, the tag index and the handover timers less a record (R12). -/
def withoutRecord (s : State) (r : Record) : State :=
  { s with
    cr := { s.cr with records := s.cr.records.filter fun x => x.receipt ≠ r.receipt
                      tagIndex := s.cr.tagIndex.filter fun e => e.2 ≠ r.receipt }
    rc := { s.rc with handoverTimers := s.rc.handoverTimers.filter fun h => h.1 ≠ r.receipt } }

/-- What makes the fields of an ADVS refused BAD_VALUE (R119). -/
def badAdvice (s : State) (tag : Tag) (declared : BitVec 40) (lines : List LineField) : Prop :=
  tag = 0#32 ∨ tag = 0xFFFFFFFF#32 ∨ lines.length = 0 ∨ 8 < lines.length ∨ (∃ l ∈ lines, 15 < l.denom.toNat) ∨
  (∃ l ∈ lines, l.count.toNat = 0 ∨ 9999 < l.count.toNat) ∨ ¬ (lines.map LineField.denom).Nodup ∨
  (∃ l ∈ lines, ∃ d : Fin 16, l.denom.toNat = d.val ∧ s.wau.denoms[d].face = 0) ∨ 99999999999 < declared.toNat

/-- The advice that the fields of an ADVS carry, lines in their order (R118). -/
def adviceCarried (customer : BitVec 24) (declared : BitVec 40) (lines : List LineField) : Advice where
  customer := customer.toNat
  lines := lines.map fun l => { denom := Fin.ofNat 16 l.denom.toNat, count := l.count.toNat }
  declared := declared.toNat

/-- A staff id stands in the roster with a role (R135). -/
def hasRole (s : State) (id : BitVec 24) (role : Role) : Prop :=
  ∃ before after m, s.rc.roster = before ++ m :: after ∧ m.id = id.toNat ∧ m.role = role ∧ ∀ x ∈ before, x.id ≠ id.toNat

/-- A staff id is not in the roster (R135). -/
def notRostered (s : State) (id : BitVec 24) : Prop := ∀ m ∈ s.rc.roster, m.id ≠ id.toNat

/-- A flag is raised: it stands set and its count is one more, 255 at most (R171); the attention output follows the flags
and enables (R174). -/
def raised (s : State) (f : StatusFlag) : State :=
  let flags := s.ls.flags.set f.place { set := true, count := min 255 (s.ls.flags[f.place].count + 1) }
  { s with ls := { s.ls with flags, attention := (List.finRange 16).any fun i => flags[i].set && s.ls.enables.getLsbD i } }

/-- The totals of pocket q after a record has left it (R77). -/
def left (s : State) (r : Record) (q : Fin 21) : Pocket :=
  { s.pcc.pockets[q] with
    used := s.pcc.pockets[q].used - r.size.getD 0
    bags := s.pcc.pockets[q].bags - 1
    declared := s.pcc.pockets[q].declared - r.declaredTotal
    mass := s.pcc.pockets[q].mass - r.mass.getD 0 }

/-- A bag of a size class fits a pocket: the pocket is in service and its free units suffice (R72, R73). -/
def hasRoom (s : State) (p : Fin 21) (size : Nat) : Prop :=
  s.pcc.pockets[p].capacity ≠ 0 ∧ s.pcc.pockets[p].used + s.pcc.heldUnits p + size ≤ s.pcc.pockets[p].capacity

/-- A receipt is the first free one from the counter on, and its place among the records is between these (R3). -/
def freshPlace (s : State) (n : Nat) (before after : List Record) : Prop :=
  before ++ after = s.cr.records ∧ (∀ x ∈ before, x.receipt < n) ∧ (∀ x ∈ after, n < x.receipt) ∧
  ∃ k, n = nextReceipt^[k] s.cr.receiptCounter ∧
    ∀ j < k, ∃ x ∈ s.cr.records, x.receipt = nextReceipt^[j] s.cr.receiptCounter

/-- The register with a new record in its place, the counter past its receipt, and the tag index with its tag where it
claims one (R2, R3, R14). -/
def withNew (s : State) (before after : List Record) (r : Record) : State :=
  { s with cr := { s.cr with
    records := before ++ r :: after
    receiptCounter := nextReceipt r.receipt
    tagIndex := match r.claims, r.tag with
      | true, some t => insertTag t r.receipt s.cr.tagIndex
      | _, _ => s.cr.tagIndex } }

/-- The drop is jammed: the sequencer is in JAMMED with its timers stopped, the hold and the intake request are gone, the
INTAKE record has its flag JAMMED, and JAM is raised (R110). -/
def jammedDrop (s : State) : State :=
  raised { s with
    cr := { s.cr with records := s.cr.records.map fun r => if r.state = .intake then { r with jammed := true } else r }
    pcc := { s.pcc with hold := none, queue := s.pcc.queue.filter fun q => q.source ≠ .intake }
    intake := { s.intake with
      phase := .jammed, drawerTimer := none, tagWindow := none, weighTimer := none, tipTimer := none } } .jam

/-- A carousel fault before the chute is looked at: FAULT with the position and the last direction lost and the queue
empty, a drop in POSITION or TIP jammed, the open pocket ended with an unopened hatch locked, CAROUSEL_FAULT raised
(R91). -/
def faulted (s : State) : State :=
  let t : State := { s with
    pcc := { s.pcc with drum := .fault, position := none, lastDir := none, queue := [] }
    rc := { s.rc with
      openPocket := none
      guardMark := none
      hatch := if s.rc.hatch = .unlocked then .locked else s.rc.hatch
      unopenedTimer := if s.rc.hatch = .unlocked then none else s.rc.unopenedTimer } }
  raised (if s.intake.phase = .position ∨ s.intake.phase = .tip then jammedDrop t else t) .carouselFault

/-- A record is staged from pocket q with a count-required value: it leaves q's list, goes to STAGED and OUT, q's totals
fall by its values, and its handover timer starts at the full interval (R10, R77, R153). -/
def staged (s : State) (r : Record) (q : Fin 21) (need : Bool) : State :=
  { s with
    cr := { s.cr with
      records := changed s r fun x => { x with state := .staged, location := .out, countRequired := need }
      lists := s.cr.lists.set q (s.cr.lists[q].filter fun m => m ≠ r.receipt) }
    pcc := { s.pcc with pockets := s.pcc.pockets.set q (left s r q) }
    rc := { s.rc with
      handoverTimers :=
        insertTimer r.receipt s.rc.handoverInterval (s.rc.handoverTimers.filter fun h => h.1 ≠ r.receipt) } }

/-- The totals of pocket p after a record has entered it (R76). -/
def entered (s : State) (r : Record) (p : Fin 21) : Pocket :=
  { s.pcc.pockets[p] with
    used := s.pcc.pockets[p].used + r.size.getD 0
    bags := s.pcc.pockets[p].bags + 1
    declared := s.pcc.pockets[p].declared + r.declaredTotal
    mass := s.pcc.pockets[p].mass + r.mass.getD 0 }

/-- POCKET_LAST or POCKET_FULL raised by the class in which an entry left pocket p (R76). -/
def flagged (s : State) (p : Fin 21) : State :=
  match s.pcc.classOf p with
  | .last => raised s .pocketLast
  | .full => raised s .pocketFull
  | .opened | .outOfService => s

/-- A record is returned into pocket q: HELD there at the tail of q's list with count required no, q's totals risen, its
handover timer stopped (R11, R76, R148). -/
def returned (s : State) (r : Record) (q : Fin 21) : State :=
  flagged { s with
    cr := { s.cr with
      records := changed s r fun x => { x with state := .held, location := .pocket q, countRequired := false }
      lists := s.cr.lists.set q (s.cr.lists[q] ++ [r.receipt]) }
    pcc := { s.pcc with pockets := s.pcc.pockets.set q (entered s r q) }
    rc := { s.rc with handoverTimers := s.rc.handoverTimers.filter fun h => h.1 ≠ r.receipt } } q

/-- A record is completed into pocket p: GRACE or HELD by the test of R7, its drop time from the clock, the night's and the
pocket's totals risen, and the flags of R7 and R76 raised (R7, R8, R76). -/
def completed (s : State) (r : Record) (p : Fin 21) : State :=
  let grace := r.claims = true ∧ r.mark = .none ∧ 0 < s.cr.graceInterval
  let t : State := { s with cr := { s.cr with
    records := changed s r fun x =>
      { x with location := .pocket p, state := if grace then .grace else .held
               grace := if grace then some s.cr.graceInterval else none, dropTime := s.ls.clock }
    lists := s.cr.lists.set p (s.cr.lists[p] ++ [r.receipt])
    totals :=
      { bags := min 65535 (s.cr.totals.bags + 1)
        exceptions := if p = 0 then min 65535 (s.cr.totals.exceptions + 1) else s.cr.totals.exceptions
        declared := min 999999999999 (s.cr.totals.declared + r.declaredTotal)
        mass := min 999999999999 (s.cr.totals.mass + r.mass.getD 0) } } }
  let u := if p = 0 then raised (raised t .dropDone) .exceptionDrop else raised t .dropDone
  flagged { u with pcc := { u.pcc with pockets := u.pcc.pockets.set p (entered s r p) } } p

/-- The state with a lamp of the hatch lit, the other out (R146). -/
def lit (s : State) (l : Lamp) : State := { s with rc := { s.rc with lamp := some l } }

/-- The state with the idle timer of an OPEN session restarted at the full interval (R141). -/
def idleRestarted (s : State) : State :=
  { s with rc := { s.rc with session := match s.rc.session with
    | .opened _ => .opened s.rc.idleInterval
    | x => x } }

/-- The steps of the shorter way round from position c to position t (R80). -/
def shorterWay (c t : Fin 21) : Option (Dir × Nat) :=
  let d := (t.val + 21 - c.val) % 21
  if d = 0 then none else if d ≤ 10 then some (.forward, d) else some (.backward, 21 - d)

/-- The carousel after it left IDLE for a move (R80, R82, R85): in SETTLE when the move reverses and the settle interval is
above 0, else in MOVING with the arrival timer set and the last direction that of the move. -/
def setOff (c : Carousel) (target : Fin 21) (dir : Dir) (steps : Nat) (prePosition : Bool) : Carousel :=
  let m : Move := { target, dir, steps, stepMs := c.stepInterval, settleMs := c.settleInterval, prePosition }
  if c.lastDir.isSome = true ∧ c.lastDir ≠ some dir ∧ 0 < c.settleInterval then { c with drum := .settle m }
  else { c with drum := .moving m ((steps + 1) * c.stepInterval), lastDir := some dir }

/-! ## Invariants -/

/-- The EEPROM is in its canonical form (R177). -/
def eepromCanonical (s : State) : Prop := Memory.wf s.ss.eeprom = true

/-- At most 384 records (R2). -/
def slotsBounded (s : State) : Prop := s.cr.records.length ≤ 384

/-- The attention output is asserted exactly while a flag is set whose enable is on, and released while RESET_N is held
(R174, R183). -/
def attentionRight (s : State) : Prop :=
  s.ls.attention = (!s.resetHeld && (List.finRange 16).any fun i => s.ls.flags[i].set && s.ls.enables.getLsbD i)

/-- At most 384 records, in rising receipt order, each receipt and the counter in 1 to 65,535 (R2, R3). -/
def receiptsOrdered (s : State) : Prop :=
  slotsBounded s ∧ s.cr.records.Pairwise (fun a b => a.receipt < b.receipt) ∧
  (∀ r ∈ s.cr.records, 1 ≤ r.receipt ∧ r.receipt ≤ 65535) ∧ 1 ≤ s.cr.receiptCounter ∧ s.cr.receiptCounter ≤ 65535

/-- The location that goes with a state (R4). -/
def located (r : Record) : Prop :=
  match r.state with
  | .advised | .missing => r.location = .absent
  | .intake => r.location = .drawer
  | .grace | .held => ∃ p, r.location = .pocket p
  | .staged | .overdue => r.location = .out

/-- Receipts in order, every record where its state says, and PENDING only a record that a bag stands behind (R3, R4,
R42, R124). -/
def registerRight (s : State) : Prop :=
  receiptsOrdered s ∧
  ∀ r ∈ s.cr.records, located r ∧ (r.verdict = some .pending → r.state ≠ .advised ∧ r.state ≠ .missing)

/-- A size class has been taken (R100). -/
def sized (x : Option Nat) : Prop := ∃ n, x = some n ∧ 1 ≤ n ∧ n ≤ 4

/-- The phases in which the drop has its record (R94, R103). -/
def hasRecord : Phase → Bool
  | .weigh | .route | .position | .tip | .jammed => true
  | .closed | .shut | .ready | .loading | .identify => false

/-- The drop: one record is in INTAKE from WEIGH to TIP and in JAMMED, and none otherwise; a bag that has come has its size
class from IDENTIFY on; the pocket is chosen in POSITION and TIP, and an intake request stands only there; what a restart
left to take up waits in CLOSED or SHUT for the end of homing (R4, R94, R100, R106, R107, R110, R117). -/
def dropRight (s : State) : Prop :=
  (s.intake.phase = .identify → sized s.intake.readings.size) ∧
  (∀ r ∈ s.cr.records, r.state ≠ .advised → r.state ≠ .missing → sized r.size) ∧
  (hasRecord s.intake.phase = true → ∃ r, inIntake s r) ∧
  (hasRecord s.intake.phase = false → ∀ r ∈ s.cr.records, r.state ≠ .intake) ∧
  (s.intake.phase = .position ∨ s.intake.phase = .tip → s.intake.readings.chosen.isSome = true) ∧
  (∀ q ∈ s.pcc.queue, q.source = .intake → s.intake.phase = .position ∨ s.intake.phase = .tip) ∧
  (s.intake.takeUp = true → (s.intake.phase = .closed ∨ s.intake.phase = .shut) ∧ ∃ x, s.pcc.drum = .homing x)

/-- An advice is attached exactly when the mark is not NONE; ADVISED and MISSING carry the mark BEFORE; GRACE is unadvised
and alone has a grace timer (R1, R9, R118, R121, R166). -/
def markRight (r : Record) : Prop :=
  (r.mark = .none ↔ r.advice = none) ∧ (r.state = .advised ∨ r.state = .missing → r.mark = .before) ∧
  (r.state = .grace → r.mark = .none) ∧ (r.grace.isSome = true ↔ r.state = .grace)

/-- The tag index has one entry for each claiming record, under its tag, and no other; no two entries have one tag
(R14). -/
def indexRight (s : State) : Prop :=
  s.cr.tagIndex.Pairwise (fun a b => a.1.toNat < b.1.toNat) ∧
  ∀ t n, (t, n) ∈ s.cr.tagIndex ↔ ∃ r ∈ s.cr.records, r.receipt = n ∧ r.claims = true ∧ r.tag = some t

/-- The records located in a pocket. -/
def locatedIn (s : State) (p : Fin 21) : List Record := s.cr.records.filter fun r => r.location = .pocket p

/-- Each pocket list holds the receipts of the records located in its pocket, each once (R16). -/
def listsRight (s : State) : Prop :=
  ∀ p : Fin 21, s.cr.lists[p].Nodup ∧ ∀ n, n ∈ s.cr.lists[p] ↔ ∃ r ∈ locatedIn s p, r.receipt = n

/-- The totals of each pocket are those of the records located in it (R71). -/
def totalsRight (s : State) : Prop :=
  ∀ p : Fin 21, s.pcc.pockets[p].bags = (locatedIn s p).length ∧
    s.pcc.pockets[p].used = ((locatedIn s p).map fun r => r.size.getD 0).sum ∧
    s.pcc.pockets[p].declared = ((locatedIn s p).map fun r => match r.advice with | some a => a.declared | none => 0).sum ∧
    s.pcc.pockets[p].mass = ((locatedIn s p).map fun r => r.mass.getD 0).sum

/-- One handover timer runs for each STAGED record and none else (R153). -/
def handoversRight (s : State) : Prop :=
  (s.rc.handoverTimers.map Prod.fst).Nodup ∧
  ∀ n, n ∈ s.rc.handoverTimers.map Prod.fst ↔ ∃ r ∈ s.cr.records, r.receipt = n ∧ r.state = .staged

/-- Custody is kept in one way everywhere: marks, tag index, pocket lists, pocket totals and handover timers agree with the
records (R1, R14, R16, R71, R153). -/
def custodyRight (s : State) : Prop :=
  (∀ r ∈ s.cr.records, markRight r) ∧ indexRight s ∧ listsRight s ∧ totalsRight s ∧ handoversRight s

/-- The hold is the one that the state of the sequencer has: none in CLOSED, SHUT and JAMMED, 4 units of pocket 0 from
READY to ROUTE, which a drop taken up after a restart may lack until the window's end, and the bag's size class in the
chosen pocket in POSITION and TIP (R94, R117). -/
def holdRight (s : State) : Prop :=
  match s.intake.phase with
  | .closed | .shut | .jammed => s.pcc.hold = none
  | .ready | .weigh | .route => s.pcc.hold = some ⟨0, 4⟩
  | .loading | .identify => s.pcc.hold = some ⟨0, 4⟩ ∨ s.pcc.hold = none
  | .position | .tip => ∃ r p n, inIntake s r ∧ s.intake.readings.chosen = some p ∧ r.size = some n ∧
      s.pcc.hold = some ⟨p, n⟩

/-- No pocket holds, with what is held there, more than 24 units; no capacity is above 24, and pocket 0's is 24 (R71,
R74). -/
def roomRight (s : State) : Prop :=
  s.pcc.pockets[0].capacity = 24 ∧
  ∀ p : Fin 21, s.pcc.pockets[p].capacity ≤ 24 ∧ s.pcc.pockets[p].used + s.pcc.heldUnits p ≤ 24

/-- The job queue: at most 6 jobs, WORKING exactly while one stands, a job in the queue for every PENDING record, and a
drop that waits in ROUTE only while the queue is full (R52, R53, R54, R106). -/
def jobsRight (s : State) : Prop :=
  s.wau.queue.length ≤ 6 ∧ (s.wau.working.isSome = true ↔ s.wau.queue ≠ []) ∧
  (∀ r ∈ s.cr.records, r.verdict = some .pending → ⟨r.receipt, r.tag⟩ ∈ s.wau.queue) ∧
  (s.intake.phase = .route → s.wau.queue.length = 6)

/-- At most one intake request and three release requests stand in the positioning queue (R83). -/
def requestsRight (s : State) : Prop :=
  (s.pcc.queue.countP fun q => q.source == .intake) ≤ 1 ∧ (s.pcc.queue.countP fun q => q.source == .release) ≤ 3

/-- The hold, the room it leaves, and the two queues (R52 to R54, R71, R74, R83, R94). -/
def queuesRight (s : State) : Prop := holdRight s ∧ roomRight s ∧ jobsRight s ∧ requestsRight s

/-- The position is known in IDLE, SETTLE and MOVING and unknown in HOMING and FAULT (R81). -/
def positionRight (s : State) : Prop :=
  match s.pcc.drum with
  | .idle | .settle _ | .moving _ _ => s.pcc.position.isSome = true
  | .homing _ | .fault => s.pcc.position = none

/-- The hatch (R144 to R146): the unopened timer runs exactly in UNLOCKED, an open pocket stands only while the hatch is
not locked, and the repeat guard only while a pocket is open. -/
def hatchRight (s : State) : Prop :=
  (s.rc.unopenedTimer.isSome = true ↔ s.rc.hatch = .unlocked) ∧ (s.rc.openPocket.isSome = true → s.rc.hatch ≠ .locked) ∧
  (s.rc.guardMark.isSome = true → s.rc.openPocket.isSome = true)

/-- The carousel moves only while the hatch is shut and locked: in SETTLE, in MOVING and in a search that has begun, the
interlock is SECURE; and the drum is IDLE while an intake request is in service and while the hatch is UNLOCKED, and does
not turn while it is OPENED (R81, R84, R85, R87, R93). -/
def interlockRight (s : State) : Prop :=
  (match s.pcc.drum with
    | .settle _ | .moving _ _ | .homing (some _) => s.rc.hatch = .locked ∧ s.pins.hatchShut = true
    | .idle | .homing none | .fault => True) ∧
  ((∃ q ∈ s.pcc.queue, q.stage = .inService) ∨ s.rc.hatch = .unlocked → s.pcc.drum = .idle)

/-- The settings of a start-up that loads none (R30, R45, R49, R71, R178, R180): no range entry enabled, general routing on,
no denomination set, the tolerance sets' own values, pockets of 24 units, an empty roster, a dual count for all but INSIDE
and for exceptions, and the timers, options and enables of R180. -/
def defaultSettings : SettingValues where
  entries := Vector.replicate 8 { enabled := false, base := 0#32, prefixLength := 8, closed := false, audit := false
                                  group := [1], tolSet := 0, cap := 0 }
  general := true
  denoms := Vector.replicate 16 { face := 0, mass := 0, spread := 0 }
  tols := Vector.replicate 4 { tare := 60000, tareSpread := 2000, lower := 5000, upper := 5000, plausMin := 200
                               plausMax := 150000 }
  capacities := Vector.replicate 20 24
  roster := []
  policy := [{ condition := .inside, invert := true }, { condition := .exception, invert := false }]
  timers := { grace := 300, handover := 30, pairing := 60, idle := 600, step := 250, settle := 400, prePosition := false
              weakOption := true, enables := 0xFFFF#16 }

/-- Every setting lies in the range its write request keeps it in (R32, R46, R50, R75, R136, R152, R180). -/
def settingsLegal (x : SettingValues) : Prop :=
  (∀ i : Fin 8, let e := x.entries[i]
    8 ≤ e.prefixLength ∧ e.prefixLength ≤ 32 ∧ e.cap ≤ 15 ∧ 1 ≤ e.group.length ∧ e.group.length ≤ 8 ∧ e.group.Nodup ∧
    ∀ p ∈ e.group, p ≠ 0) ∧
  (∀ i : Fin 16, let d := x.denoms[i]
    d.face ≤ 1000000 ∧ d.mass ≤ 65535 ∧ d.spread ≤ 255) ∧
  (∀ i : Fin 4, let t := x.tols[i]
    t.tare ≤ 999999 ∧ t.tareSpread ≤ 99999 ∧ t.lower ≤ 999999 ∧ t.upper ≤ 999999 ∧ t.plausMin ≤ 200000 ∧
    t.plausMax ≤ 200000) ∧
  (∀ i : Fin 20, x.capacities[i] ≤ 24) ∧
  (x.roster.length ≤ 16 ∧ (∀ m ∈ x.roster, 1 ≤ m.id ∧ m.id ≤ 999999) ∧ (x.roster.map Staff.id).Nodup) ∧
  x.policy.length ≤ 4 ∧
  (x.timers.grace ≤ 3600 ∧ 1 ≤ x.timers.handover ∧ x.timers.handover ≤ 240 ∧ 10 ≤ x.timers.pairing ∧
    x.timers.pairing ≤ 300 ∧ 60 ≤ x.timers.idle ∧ x.timers.idle ≤ 3600 ∧ 50 ≤ x.timers.step ∧ x.timers.step ≤ 1000 ∧
    x.timers.settle ≤ 2000)

/-- The settings lie in their ranges, the copy of a save under way is a whole image that begins with format 1, and the
EEPROM is in its canonical form (R177, R181). -/
def settingsRight (s : State) : Prop :=
  settingsLegal s.settings ∧ (∀ copy, s.ss.saving = some copy → copy.length = 435 ∧ copy.head? = some 1#8) ∧
  eepromCanonical s

end Sys2Proof.Safety
end

