-- ==== Sys2Proof/Certificates/Slice0/Obligations.lean ====
section
/-! DEFINITION. The statements for the provers, from the numbered rules of spec/. -/

open Sys2Proof Sys2Proof.Machine Sys2Proof.Safety

/-! ## The queue of commands, the lines and reset -/

/-- A step takes the command at the front of the queue and runs it on the rest; on an empty queue the block idles, which
is the model's choice (log 1). -/
def Obligations.StepRunsTheFrontCommand : Prop :=
  (∀ (c : Instr) (rest : List Instr) (s : State), s.pending = c :: rest → step s = exec c { s with pending := rest }) ∧
  (∀ s : State, s.pending = [] → step s = .next s) ∧ State.reset.pending = []

/-- While the module runs, the drawer is unlocked exactly in READY and LOADING (R94), the tip actuator driven exactly in TIP
(R108), the drive on exactly in MOVING and in a search that has begun (R81, R93), and the hatch locked exactly in LOCKED
(R144); that each follows from its state alone is DEDUCED in log 21. RESET_HOLD puts every output at rest: the drawer and the
hatch locked, the tip actuator and the drive off, the attention output released, both lines not driven (R183). That the rest
of the state stands then is the model's: DEDUCED in log 7, and, for a lit lamp of the hatch reader, DESIGN CHOICE in log 24.
While RESET_N is held nothing but RESTART and RESET_HOLD has an effect (DEDUCED in log 7). -/
def Obligations.OutputsFollowTheStateAndRestInReset : Prop :=
  (∀ s : State, s.resetHeld = false →
     (s.drawerLocked = false ↔ s.intake.phase = .ready ∨ s.intake.phase = .loading) ∧
     (s.tipActuator = true ↔ s.intake.phase = .tip) ∧
     (s.carouselDrive = true ↔ (∃ m left, s.pcc.drum = .moving m left) ∨ ∃ x, s.pcc.drum = .homing (some x)) ∧
     (s.hatchLocked = true ↔ s.rc.hatch = .locked)) ∧
  (∀ s : State, ∃ t, exec .resetHold s = .next t ∧ t.drawerLocked = true ∧ t.hatchLocked = true ∧
     t.tipActuator = false ∧ t.carouselDrive = false ∧ t.ls.attention = false ∧ t.ls.branch = {} ∧ t.ls.panel = {} ∧
     t = { s with resetHeld := true, ls := { s.ls with branch := {}, panel := {}, attention := false } }) ∧
  (∀ (c : Instr) (s : State), s.resetHeld = true → c ≠ .resetHold → (∀ a b x y n, c ≠ .restart a b x y n) →
     exec c s = .next s)

/-- Every request taken on a free line gets one reply with its own name on that line, and none on the other (R163, R164).
The line is then driven with the reply's frame: the module's address, the length, the name, the outcome word in ASCII, the
reply data, and the CRC over all these (R159, R161); a refusal carries the word alone (R164). A request is lost while the
reply before it is being sent on its line, and a branch-link request while the strap is 0 (R158, R163; DEDUCED in log 6). -/
def Obligations.RequestsAreAnsweredOrLost : Prop :=
  (∀ (c : Instr) (r : ReqName) (body : List Byte) (s : State), c.encode = some (r, body) →
     (match r.line with | .branch => branchIdle s | .panel => panelIdle s) →
     ∃ t a address, exec c s = .next t ∧
       t.line r.line = { receiver := .hunt, reply := some { name := r.code, answer := a } } ∧
       (match r.line with | .branch => t.ls.panel = s.ls.panel | .panel => t.ls.branch = s.ls.branch) ∧
       (a.word ≠ .ok → a.word ≠ .late → a.word ≠ .none → a.data = []) ∧ s.address r.line = some address ∧
       let covered := [address, BitVec.ofNat 8 (8 + a.data.length)] ++ be 4 r.code.toNat ++ ascii (wordText a.word) ++ a.data
       t.replyFrame r.line = some ([0xA5#8] ++ covered ++ be 2 (crc16 covered).toNat)) ∧
  (∀ (c : Instr) (r : ReqName) (body : List Byte) (s : State), c.encode = some (r, body) →
     (s.line r.line).reply.isSome = true ∨ (r.line = .branch ∧ s.ss.straps.address = 0#5) → exec c s = .next s) ∧
  (∀ (l : Line) (s : State), (s.line l).reply = none ∨ s.resetHeld = true → s.replyFrame l = none)

/-- Decode of encode: every request that fits a frame is read back from its own body, on its own line (R162, R165,
R168). -/
def Obligations.DecodeReadsEncodedRequests : Prop :=
  ∀ (c : Instr) (r : ReqName) (body : List Byte), c.wf = true → c.encode = some (r, body) →
    decodeRequest r.line r.code body = .request c

/-- A request's frame, sent byte by byte to a free line whose receiver is in HUNT, is the request (R159 to R163). -/
def Obligations.FrameBytesAreTheRequest : Prop :=
  ∀ (c : Instr) (r : ReqName) (body : List Byte) (a : Byte) (s : State), c.wf = true → c.encode = some (r, body) →
    s.resetHeld = false → (s.line r.line) = {} → s.address r.line = some a →
    feed r.line (wireFrame a r.code body) s = exec c s

/-- The receiver (R160, R163): in HUNT only A5 counts; a length byte out of range, and a gap, end the frame; no byte is
taken while a reply is being sent, and the end of the reply leaves the receiver in HUNT. A completed frame is judged by the
first row of R162 that holds: UNKNOWN echoes the name received, and BAD_VALUE answers every body size that is not the one
called for (R168, R180). The last CRC byte of a frame completes it, and does what FRAME_REJECTED of the frame that the bytes
spell does. That FRAME_REJECTED takes a frame that passes as its request is DEDUCED in log 20. -/
def Obligations.FramesAreReceivedAndChecked : Prop :=
  (∀ (l : Line) (b : Byte) (s : State), s.resetHeld = false →
     ((s.line l).reply.isSome = true → exec (.lineByteReceived l b) s = .next s ∧
       exec (.replyEnd l) s = .next (s.setLine l { receiver := .hunt, reply := none })) ∧
     ((s.line l).reply = none → exec (.replyEnd l) s = .next s) ∧
     exec (.frameGap l) s = .next (s.setLine l { s.line l with receiver := .hunt }) ∧
     ((s.line l).reply = none → (s.line l).receiver = .hunt → b ≠ 0xA5#8 → exec (.lineByteReceived l b) s = .next s) ∧
     ((s.line l).reply = none → (s.line l).receiver = .hunt → b = 0xA5#8 →
       exec (.lineByteReceived l b) s = .next (s.setLine l { receiver := .frame [], reply := none })) ∧
     (∀ a : Byte, (s.line l).reply = none → (s.line l).receiver = .frame [a] → (b.toNat < 4 ∨ 250 < b.toNat) →
       exec (.lineByteReceived l b) s = .next (s.setLine l {})) ∧
     (∀ (a n : Byte) (taken : List Byte), (s.line l).reply = none → (s.line l).receiver = .frame (a :: n :: taken) →
       4 ≤ n.toNat → n.toNat ≤ 250 → taken.length < n.toNat + 1 →
       exec (.lineByteReceived l b) s = .next (s.setLine l { receiver := .frame (a :: n :: (taken ++ [b])), reply := none })) ∧
     (∀ (a n : Byte) (taken : List Byte), (s.line l).reply = none → (s.line l).receiver = .frame (a :: n :: taken) →
       4 ≤ n.toNat → n.toNat ≤ 250 → taken.length = n.toNat + 1 →
       ∃ f : Frame, f.address = a ∧ be 4 f.name.toNat ++ f.body ++ be 2 f.crc.toNat = taken ++ [b] ∧
         exec (.lineByteReceived l b) s = exec (.frameRejected l f) s)) ∧
  (∀ (l : Line) (f : Frame) (s : State), s.resetHeld = false → (s.line l).reply = none →
     let t := s.setLine l { s.line l with receiver := .hunt }
     let reply (w : OutcomeWord) : State :=
       t.setLine l { receiver := .hunt, reply := some { name := f.name, answer := { word := w } } }
     let good := f.crc = crc16 (frameBytes f.address f.name f.body)
     (s.address l ≠ some f.address ∨ ¬ good → exec (.frameRejected l f) s = .next t) ∧
     (s.address l = some f.address → good → (∀ r : ReqName, r.line = l → r.code ≠ f.name) →
       exec (.frameRejected l f) s = .next (reply .unknown)) ∧
     (∀ r : ReqName, s.address l = some f.address → good → r.line = l → r.code = f.name →
       (¬ bodyFits r f.body → exec (.frameRejected l f) s = .next (reply .badValue)) ∧
       (bodyFits r f.body → ∃ c : Instr, c.encode = some (r, f.body) ∧ exec (.frameRejected l f) s = exec c t) ∧
       (∀ c : Instr, c.encode = some (r, f.body) → c.wf = true → exec (.frameRejected l f) s = exec c t)))

/-! ## Lookups, status and clock -/

/-- READ (R21) and FTAG (R22): nothing changes but the reply. The record summary of every reply that carries one, and the
retirement summary of CNFM, have the bytes of the table of R166: 45 + 3 × lines and 56 + 3 × lines of them. -/
def Obligations.RecordsAreReadByReceiptAndTag : Prop :=
  (∀ (n : BitVec 16) (s : State), branchIdle s →
     (n = 0#16 → exec (.read n) s = .next (branchReply s .read .badValue [])) ∧
     (n ≠ 0#16 → (∀ r ∈ s.cr.records, r.receipt ≠ n.toNat) →
       exec (.read n) s = .next (branchReply s .read .notFound [])) ∧
     (∀ r, n ≠ 0#16 → holds s r → r.receipt = n.toNat →
       exec (.read n) s = .next (branchReply s .read .ok (summaryLayout r)))) ∧
  (∀ (tag : Tag) (s : State), branchIdle s →
     (tag = 0#32 ∨ tag = 0xFFFFFFFF#32 → exec (.ftag tag) s = .next (branchReply s .ftag .badValue [])) ∧
     (tag ≠ 0#32 → tag ≠ 0xFFFFFFFF#32 → unclaimed s tag →
       exec (.ftag tag) s = .next (branchReply s .ftag .notFound [])) ∧
     (∀ r, tag ≠ 0#32 → tag ≠ 0xFFFFFFFF#32 → claims s tag r →
       exec (.ftag tag) s = .next (branchReply s .ftag .ok (summaryLayout r)))) ∧
  (∀ (r : Record) (counted : Nat), r.summary = summaryLayout r ∧ r.retirement counted = retirementLayout r counted ∧
     (∀ a, r.advice = some a → r.summary.length = 45 + 3 * a.lines.length ∧
       (r.retirement counted).length = 56 + 3 * a.lines.length) ∧
     (r.advice = none → r.summary.length = 45 ∧ (r.retirement counted).length = 56))

/-- LCUS and LSTA (R23): the matching receipts in the register's ascending order, 16 at most, and the lowest one not
returned; a start receipt of 0 and an unknown state code are refused. LPKT (R24), PKTS with the pocket's class (R72, R78,
R165, R169) and NTOT (R169). -/
def Obligations.ListsAndTotalsAreRead : Prop :=
  (∀ (start : BitVec 16) (s : State), branchIdle s →
     (∀ customer, start = 0#16 → exec (.lcus customer start) s = .next (branchReply s .lcus .badValue [])) ∧
     (∀ code, start = 0#16 ∨ (∀ x : RecState, x.code ≠ code) →
       exec (.lsta code start) s = .next (branchReply s .lsta .badValue [])) ∧
     (∀ (customer : BitVec 24), start ≠ 0#16 →
       let found := (s.cr.records.filter fun r =>
         r.advice.map Advice.customer = some customer.toNat ∧ start.toNat ≤ r.receipt).map Record.receipt
       exec (.lcus customer start) s = .next (branchReply s .lcus .ok (listReply (found.take 16) found[16]?))) ∧
     (∀ x : RecState, start ≠ 0#16 →
       let found := (s.cr.records.filter fun r => r.state = x ∧ start.toNat ≤ r.receipt).map Record.receipt
       exec (.lsta x.code start) s = .next (branchReply s .lsta .ok (listReply (found.take 16) found[16]?)))) ∧
  (∀ s : State, branchIdle s →
     (∀ pocket start : BitVec 8, 20 < pocket.toNat ∨ 23 < start.toNat →
       exec (.lpkt pocket start) s = .next (branchReply s .lpkt .badValue [])) ∧
     (∀ (p : Fin 21) (pocket start : BitVec 8), pocket.toNat = p.val → start.toNat ≤ 23 →
       let rest := s.cr.lists[p].drop start.toNat
       exec (.lpkt pocket start) s = .next (branchReply s .lpkt .ok
         (listReply (rest.take 16) (if 16 < rest.length then some (start.toNat + 16) else none)))) ∧
     (∀ pocket : BitVec 8, 20 < pocket.toNat → exec (.pkts pocket) s = .next (branchReply s .pkts .badValue [])) ∧
     (∀ (p : Fin 21) (pocket : BitVec 8), pocket.toNat = p.val →
       let x := s.pcc.pockets[p]
       let held := match s.pcc.hold with | some h => if h.pocket = p then h.units else 0 | none => 0
       let free := x.capacity - (x.used + held)
       let class_ : Byte := if x.capacity = 0 then 4#8 else if free = 0 then 3#8 else if free < 4 then 2#8 else 1#8
       exec (.pkts pocket) s = .next (branchReply s .pkts .ok
         ([pocket, byte x.capacity, byte x.used, byte held, byte free, class_, byte x.bags] ++ be 6 x.declared ++ be 3 x.mass ++
          [s.pcc.drum.code, match s.pcc.position with | some k => byte k.val | none => 255#8, byte s.pcc.queue.length,
           yesNo s.stationHeld]))) ∧
     exec .ntot s = .next (branchReply s .ntot .ok
       (be 2 s.cr.totals.bags ++ be 2 s.cr.totals.exceptions ++ be 5 s.cr.totals.declared ++ be 5 s.cr.totals.mass ++
         [yesNo (s.cr.night == .night)])))

/-- STAT (R172): OK when at least one flag is set and NONE when none is, with the clock, the attention output and each set
flag with its raise count in ascending code order; nothing changes. -/
def Obligations.StatReadsTheFlags : Prop :=
  ∀ s : State, branchIdle s →
    let set := (List.finRange 16).filter fun i => s.ls.flags[i].set
    let data := yesNo s.ls.clock.isSome :: (be 3 (s.ls.clock.getD 0) ++ [yesNo s.ls.attention, byte set.length] ++
      set.flatMap fun i => [byte (i.val + 1), byte s.ls.flags[i].count])
    ((∃ i : Fin 16, s.ls.flags[i].set = true) → exec .stat s = .next (branchReply s .stat .ok data)) ∧
    ((∀ i : Fin 16, s.ls.flags[i].set = false) → exec .stat s = .next (branchReply s .stat .none data))

/-- CLRS (R173, R174): refused whole, or every flag named is cleared with its count, all others stand, and the attention
output is worked out again. -/
def Obligations.ClrsClearsTheFlagsNamed : Prop :=
  ∀ (codes : List (BitVec 8)) (s : State), branchIdle s →
    let bad := codes.length = 0 ∨ 16 < codes.length ∨ ∃ c ∈ codes, c.toNat = 0 ∨ 16 < c.toNat
    (bad → exec (.clrs codes) s = .next (branchReply s .clrs .badValue [])) ∧
    (¬ bad →
      let flags : Vector FlagCell 16 :=
        Vector.ofFn fun i => if ∃ c ∈ codes, c.toNat = i.val + 1 then { set := false, count := 0 } else s.ls.flags[i]
      let t : State := { s with ls := { s.ls with flags, attention := attentionOf flags s.ls.enables } }
      exec (.clrs codes) s = .next (branchReply t .clrs t.statusAnswer.word t.statusAnswer.data))

/-- TIME and the clock's tick (R175). -/
def Obligations.ClockIsSetAndCounts : Prop :=
  ∀ s : State,
    (∀ seconds : BitVec 24, branchIdle s → 86399 < seconds.toNat →
      exec (.time seconds) s = .next (branchReply s .time .badValue [])) ∧
    (∀ seconds : BitVec 24, branchIdle s → seconds.toNat ≤ 86399 →
      exec (.time seconds) s = .next (branchReply { s with ls := { s.ls with clock := some seconds.toNat } } .time .ok
        (be 3 seconds.toNat))) ∧
    (∀ c, s.resetHeld = false → s.ls.clock = some c → c < 86399 →
      exec .clockTick s = .next { s with ls := { s.ls with clock := some (c + 1) } }) ∧
    (s.resetHeld = false → s.ls.clock = some 86399 →
      exec .clockTick s = .next { s with ls := { s.ls with clock := some 0 } }) ∧
    (s.resetHeld = false → s.ls.clock = none → exec .clockTick s = .next s)

/-! ## The night and the chute -/

/-- The test of the chute (R95 to R97): CLOSED by day, READY with the hold of 4 units of pocket 0 when every condition
holds, SHUT otherwise, with CHUTE_SHUT at each entry to SHUT. The test is made again in CLOSED, SHUT and READY; in a drop
and in JAMMED nothing changes (R98). -/
def Obligations.ChuteTest : Prop :=
  ∀ s : State,
    let ready := s.cr.records.length < 384 ∧
      (s.pcc.hold = some ⟨0, 4⟩ ∨ s.pcc.pockets[0].used + s.pcc.heldUnits 0 + 4 ≤ s.pcc.pockets[0].capacity) ∧
      (∀ x, s.pcc.drum ≠ .homing x) ∧ s.pcc.drum ≠ .fault ∧ s.ss.notConfigured = false ∧ s.cr.lossPending = false
    let became (p : Phase) (h : Option Hold) : State :=
      { s with intake := { s.intake with phase := p }, pcc := { s.pcc with hold := h } }
    let still := s.intake.phase = .closed ∨ s.intake.phase = .shut ∨ s.intake.phase = .ready
    (s.cr.night = .day → s.testChute = became .closed none) ∧
    (s.cr.night = .night → ready → s.testChute = became .ready (some ⟨0, 4⟩)) ∧
    (s.cr.night = .night → ¬ ready → s.intake.phase = .shut → s.testChute = became .shut none) ∧
    (s.cr.night = .night → ¬ ready → s.intake.phase ≠ .shut → s.testChute = raised (became .shut none) .chuteShut) ∧
    (still → s.retest = s.testChute) ∧ (¬ still → s.retest = s)

/-- NOPN and NCLS (R19, R98, R132): NOPN opens the night with totals of zero, NCLS closes it and makes every ADVISED
record MISSING, and the chute is tested; each is refused in the other state. -/
def Obligations.NightOpensAndCloses : Prop :=
  ∀ s : State, branchIdle s →
    (s.cr.night = .night → exec .nopn s = .next (branchReply s .nopn .badState [])) ∧
    (s.cr.night = .day → exec .nopn s = .next (branchReply
      (State.retest { s with cr := { s.cr with
        night := .night, totals := { bags := 0, exceptions := 0, declared := 0, mass := 0 } } }) .nopn .ok [])) ∧
    (s.cr.night = .day → exec .ncls s = .next (branchReply s .ncls .badState [])) ∧
    (s.cr.night = .night → exec .ncls s = .next (branchReply
      (State.retest { s with cr := { s.cr with
        night := .day
        records := s.cr.records.map fun r => if r.state = .advised then { r with state := .missing } else r } })
      .ncls .ok (be 2 (s.cr.records.countP fun r => r.state == .advised))))

/-- WIPE and ACKL (R28, R29). -/
def Obligations.WipeAndAcknowledge : Prop :=
  ∀ s : State, branchIdle s →
    ((∃ r ∈ s.cr.records, r.state ≠ .advised ∧ r.state ≠ .missing) →
      exec .wipe s = .next (branchReply s .wipe .badState [])) ∧
    ((∀ r ∈ s.cr.records, r.state = .advised ∨ r.state = .missing) →
      exec .wipe s = .next (branchReply
        (State.retest { s with
          cr := { s.cr with records := [], tagIndex := [], receiptCounter := 1
                            totals := { bags := 0, exceptions := 0, declared := 0, mass := 0 } }
          pcc := { s.pcc with pockets := Vector.ofFn fun p =>
            { capacity := s.pcc.pockets[p].capacity, used := 0, bags := 0, declared := 0, mass := 0 } } }) .wipe .ok [])) ∧
    (∀ id, s.cr.lossPending = false → exec (.ackl id) s = .next (branchReply s .ackl .badState [])) ∧
    (∀ id, s.cr.lossPending = true → notRostered s id ∨ hasRole s id .teller →
      exec (.ackl id) s = .next (branchReply s .ackl .deny [])) ∧
    (∀ id, s.cr.lossPending = true → hasRole s id .supervisor →
      exec (.ackl id) s = .next (branchReply
        (State.retest { s with cr := { s.cr with lossPending := false } }) .ackl .ok []))

/-! ## Advices -/

/-- ADVS is refused BAD_VALUE, and nothing changes, when its fields are bad, and only then (R119). -/
def Obligations.AdvsChecksItsFields : Prop :=
  ∀ (tag : Tag) (customer : BitVec 24) (declared : BitVec 40) (lines : List LineField) (s : State), branchIdle s →
    (badAdvice s tag declared lines →
      exec (.advs tag customer declared lines) s = .next (branchReply s .advs .badValue [])) ∧
    (¬ badAdvice s tag declared lines →
      ∀ t data, exec (.advs tag customer declared lines) s ≠ .next (branchReply t .advs .badValue data))

/-- ADVS for a tag that no record claims (R120, R121): with more than 16 slots free an ADVISED record is created with the
first free receipt from the counter on, and it enters the tag index; else FULL. -/
def Obligations.AdvsCreatesARecord : Prop :=
  ∀ (tag : Tag) (customer : BitVec 24) (declared : BitVec 40) (lines : List LineField) (s : State), branchIdle s →
    ¬ badAdvice s tag declared lines → unclaimed s tag →
    (368 ≤ s.cr.records.length →
      exec (.advs tag customer declared lines) s = .next (branchReply s .advs .full [])) ∧
    (s.cr.records.length < 368 → receiptsOrdered s → ∃ n before after, freshPlace s n before after ∧
      let r : Record := { receipt := n, tag := some tag, claims := true, state := .advised, location := .absent
                          advice := some (adviceCarried customer declared lines), mark := .before }
      exec (.advs tag customer declared lines) s = .next (branchReply (withNew s before after r) .advs .ok r.summary))

/-- ADVS for a tag that a record claims (R120, R122, R129, R115): an ADVISED or MISSING record's advice is replaced whole
and nothing else changes; every refusal leaves the state as it was. -/
def Obligations.AdvsReplacesOrRefuses : Prop :=
  ∀ (tag : Tag) (customer : BitVec 24) (declared : BitVec 40) (lines : List LineField) (r : Record) (s : State),
    branchIdle s → ¬ badAdvice s tag declared lines → claims s tag r →
    let a := adviceCarried customer declared lines
    (r.state = .advised ∨ r.state = .missing →
      exec (.advs tag customer declared lines) s = .next (branchReply
        { s with cr := { s.cr with records := changed s r fun x => { x with advice := some a } } } .advs .ok
        { r with advice := some a }.summary)) ∧
    (r.state = .intake → exec (.advs tag customer declared lines) s = .next (branchReply s .advs .collide [])) ∧
    ((r.state = .grace ∨ r.state = .held ∧ r.mark = .none) → 5 ≤ s.wau.queue.length →
      exec (.advs tag customer declared lines) s = .next (branchReply s .advs .busy [])) ∧
    (r.state = .held ∧ r.mark ≠ .none ∨ r.state = .staged ∨ r.state = .overdue →
      exec (.advs tag customer declared lines) s = .next (branchReply s .advs .badState []))

/-- ADVS that attaches to a bag in a pocket (R124, R125, R127): the record takes the advice and its mark, is HELD and
PENDING with its grace timer stopped, the declared sums of its pocket and of the night rise, and its job is queued; a late
one raises LATE_ADVICE and is answered LATE. -/
def Obligations.AdvsAttaches : Prop :=
  ∀ (tag : Tag) (customer : BitVec 24) (declared : BitVec 40) (lines : List LineField) (r : Record) (p : Fin 21)
    (s : State), branchIdle s → ¬ badAdvice s tag declared lines → claims s tag r → r.location = .pocket p →
    s.wau.queue.length ≤ 4 →
    let a := adviceCarried customer declared lines
    let attached (mark : AdviceMark) (x : Record) : Record :=
      { x with advice := some a, mark, state := .held, grace := none, verdict := some .pending }
    let t (mark : AdviceMark) : State :=
      { s with
        cr := { s.cr with
          records := changed s r (attached mark)
          totals := { s.cr.totals with declared := min 999999999999 (s.cr.totals.declared + declared.toNat) } }
        pcc := { s.pcc with pockets := s.pcc.pockets.set p { s.pcc.pockets[p] with
           declared := s.pcc.pockets[p].declared + declared.toNat } }
        wau := { s.wau with queue := s.wau.queue ++ [{ receipt := r.receipt, tag := r.tag }] } }
    (r.state = .grace →
      exec (.advs tag customer declared lines) s =
        .next (branchReply (t .inGrace).startWau .advs .ok (attached .inGrace r).summary)) ∧
    (r.state = .held → r.mark = .none →
      exec (.advs tag customer declared lines) s =
        .next (branchReply (raised (t .late).startWau .lateAdvice) .advs .late (attached .late r).summary))

/-- WDRW and RETR (R130, R131, R115): the claiming record is removed when it is ADVISED, or MISSING for RETR, and the
freed slot may open the chute; every refusal leaves the state as it was. -/
def Obligations.AdvicesAreWithdrawnAndRetired : Prop :=
  ∀ (c : Instr) (name : ReqName) (wanted : RecState) (tag : Tag) (s : State), branchIdle s →
    (c = .wdrw tag ∧ name = .wdrw ∧ wanted = .advised ∨ c = .retr tag ∧ name = .retr ∧ wanted = .missing) →
    (tag = 0#32 ∨ tag = 0xFFFFFFFF#32 → exec c s = .next (branchReply s name .badValue [])) ∧
    (tag ≠ 0#32 → tag ≠ 0xFFFFFFFF#32 → unclaimed s tag → exec c s = .next (branchReply s name .notFound [])) ∧
    (∀ r, tag ≠ 0#32 → tag ≠ 0xFFFFFFFF#32 → claims s tag r →
      (r.state = .intake → exec c s = .next (branchReply s name .collide [])) ∧
      (r.state ≠ .intake → r.state ≠ wanted → exec c s = .next (branchReply s name .badState [])) ∧
      (r.state = wanted → exec c s = .next (branchReply (withoutRecord s r).retest name .ok r.summary)))

/-! ## Settings -/

/-- PCAP (R75): pocket 0 and pockets above 20 are refused; a capacity above 24 is stored as 24. TOLW (R50): a set above 3
is refused; otherwise each of the six values is clamped to the top of its range. ROST (R136) and POLW (R152): refused in
the order of their tables, or the whole roster or policy is replaced. -/
def Obligations.CapacitiesTolerancesRosterAndPolicyAreWritten : Prop :=
  (∀ (pocket capacity : BitVec 8) (s : State), branchIdle s → s.ss.saving = none →
     (pocket.toNat = 0 ∨ 20 < pocket.toNat →
       exec (.pcap pocket capacity) s = .next (branchReply s .pcap .badValue [])) ∧
     (∀ p : Fin 21, p.val ≠ 0 → pocket.toNat = p.val →
       let c := if 24 < capacity.toNat then 24 else capacity.toNat
       let t : State := { s with pcc := { s.pcc with
         pockets := s.pcc.pockets.set p { s.pcc.pockets[p] with capacity := c } } }
       exec (.pcap pocket capacity) s = .next (branchReply t .pcap .ok [pocket, byte c, (t.pcc.classOf p).code]))) ∧
  (∀ (number : BitVec 8) (f : TolField) (s : State), branchIdle s → s.ss.saving = none →
     (3 < number.toNat → exec (.tolw number f) s = .next (branchReply s .tolw .badValue [])) ∧
     (∀ n : Fin 4, number.toNat = n.val →
       let x : ToleranceSet :=
         { tare := min f.tare.toNat 999999, tareSpread := min f.tareSpread.toNat 99999
           lower := min f.lower.toNat 999999, upper := min f.upper.toNat 999999
           plausMin := min f.plausMin.toNat 200000, plausMax := min f.plausMax.toNat 200000 }
       exec (.tolw number f) s = .next (branchReply { s with wau := { s.wau with tols := s.wau.tols.set n x } } .tolw .ok
         (number :: (be 3 x.tare ++ be 3 x.tareSpread ++ be 3 x.lower ++ be 3 x.upper ++ be 3 x.plausMin ++
           be 3 x.plausMax))))) ∧
  (∀ s : State, branchIdle s → s.ss.saving = none →
     (∀ entries : List StaffField,
       let bad := 16 < entries.length ∨ (∃ e ∈ entries, e.id.toNat = 0 ∨ 999999 < e.id.toNat) ∨
         (∃ e ∈ entries, e.role ≠ 1#8 ∧ e.role ≠ 2#8) ∨ ¬ (entries.map StaffField.id).Nodup
       let roster : List Staff := entries.map fun e =>
         { id := e.id.toNat, role := if e.role = 2#8 then .supervisor else .teller }
       (s.rc.session ≠ .closed → exec (.rost entries) s = .next (branchReply s .rost .badState [])) ∧
       (s.rc.session = .closed → bad → exec (.rost entries) s = .next (branchReply s .rost .badValue [])) ∧
       (s.rc.session = .closed → ¬ bad →
         exec (.rost entries) s = .next (branchReply { s with rc := { s.rc with roster } } .rost .ok
           (byte entries.length :: entries.flatMap fun e => be 3 e.id.toNat ++ [e.role])))) ∧
     (∀ terms : List TermField,
       let bad := 4 < terms.length ∨ (∃ t ∈ terms, t.condition.toNat = 0 ∨ 11 < t.condition.toNat) ∨
         ∃ t ∈ terms, 1 < t.invert.toNat
       (bad → exec (.polw terms) s = .next (branchReply s .polw .badValue [])) ∧
       (¬ bad → ∃ policy : List PolicyTerm,
         policy.map (fun x => (x.condition.code, x.invert)) = terms.map (fun t => (t.condition, t.invert == 1#8)) ∧
         exec (.polw terms) s = .next (branchReply { s with rc := { s.rc with policy } } .polw .ok
           (byte terms.length :: terms.flatMap fun t => [t.condition, t.invert])))))

/-- RNGW (R32, R33): refused on any of the conditions of R32, or every field of the entry is replaced as written but the
prefix length, which is clamped to 8..32; the reply carries the entry as stored. GENR and RNGA (R35): the general-routing
flag is set or cleared, NOT_CONFIGURED is cleared, and the chute is tested. -/
def Obligations.RangesAndRoutingAreWritten : Prop :=
  (∀ (entry : BitVec 8) (f : RangeField) (s : State), branchIdle s → s.ss.saving = none →
     let bad := 7 < entry.toNat ∨ 1 < f.enabled.toNat ∨ 1 < f.closed.toNat ∨ 1 < f.audit.toNat ∨ 3 < f.tolSet.toNat ∨
       15 < f.cap.toNat ∨ f.group.length = 0 ∨ 8 < f.group.length ∨ (∃ p ∈ f.group, p.toNat = 0 ∨ 20 < p.toNat) ∨
       ¬ f.group.Nodup
     let length := if f.prefixLength.toNat < 8 then 8 else if 32 < f.prefixLength.toNat then 32 else f.prefixLength.toNat
     let stored : RangeEntry :=
       { enabled := f.enabled == 1#8, base := f.base, prefixLength := length, closed := f.closed == 1#8
         audit := f.audit == 1#8, group := f.group.map fun p => Fin.ofNat 21 p.toNat
         tolSet := Fin.ofNat 4 f.tolSet.toNat, cap := f.cap.toNat }
     (bad → exec (.rngw entry f) s = .next (branchReply s .rngw .badValue [])) ∧
     (∀ n : Fin 8, ¬ bad → entry.toNat = n.val →
       exec (.rngw entry f) s = .next (branchReply
         { s with trt := { s.trt with entries := s.trt.entries.set n stored } } .rngw .ok
         ([entry, f.enabled] ++ be 4 f.base.toNat ++ [byte length, f.closed, f.audit, f.tolSet, f.cap,
           byte f.group.length] ++ f.group)))) ∧
  (∀ s : State, branchIdle s → s.ss.saving = none →
     let chosen (general : Bool) : State :=
       State.retest { s with trt := { s.trt with general }, ss := { s.ss with notConfigured := false } }
     exec .genr s = .next (branchReply (chosen true) .genr .ok [1#8]) ∧
     exec .rnga s = .next (branchReply (chosen false) .rnga .ok [0#8]))

/-- DENW (R46, R47): one face value above 1,000,000 refuses the whole; otherwise the entries go to the start index and on,
from 15 to 0, and every entry not named keeps its value. -/
def Obligations.DenwStoresTheEntries : Prop :=
  ∀ (start : BitVec 8) (entries : List DenomField) (s : State), branchIdle s → s.ss.saving = none →
    let bad := 15 < start.toNat ∨ entries.length = 0 ∨ 16 < entries.length ∨ ∃ e ∈ entries, 1000000 < e.face.toNat
    let denoms : Vector Denomination 16 := Vector.ofFn fun i =>
      match entries[(i.val + 16 - start.toNat) % 16]? with
      | some e => { face := e.face.toNat, mass := e.mass.toNat, spread := e.spread.toNat }
      | none => s.wau.denoms[i]
    (bad → exec (.denw start entries) s = .next (branchReply s .denw .badValue [])) ∧
    (¬ bad → exec (.denw start entries) s = .next (branchReply { s with wau := { s.wau with denoms } } .denw .ok
      ([start, byte entries.length] ++
        entries.flatMap fun e => be 3 e.face.toNat ++ be 2 e.mass.toNat ++ [e.spread])))

/-- TIMW in both forms (R180, R174): refused when an option is neither 0 nor 1; a written interval is brought to the
nearer end of its range; the attention output is worked out again; either form replies with the 21 bytes of data. -/
def Obligations.TimwWritesAndReads : Prop :=
  ∀ s : State, branchIdle s →
    let data (x : State) : List Byte :=
      be 2 x.cr.graceInterval ++ be 1 x.rc.handoverInterval ++ be 2 x.rc.pairingInterval ++ be 2 x.rc.idleInterval ++
      be 2 x.pcc.stepInterval ++ be 2 x.pcc.settleInterval ++ [yesNo x.pcc.prePosition, yesNo x.pcc.weakOption] ++
      be 2 x.ls.enables.toNat ++ [x.ss.outcome.code, yesNo (!x.ss.notConfigured), yesNo x.ss.saving.isSome,
        x.ss.straps.address.setWidth 8, yesNo x.ss.straps.autoloadOff, yesNo x.ss.straps.timeLockEnable]
    exec .timwRead s = .next (branchReply s .timw .ok (data s)) ∧
    (∀ f : TimerField, s.ss.saving = none → 1 < f.prePosition.toNat ∨ 1 < f.weakOption.toNat →
      exec (.timw f) s = .next (branchReply s .timw .badValue [])) ∧
    (∀ f : TimerField, s.ss.saving = none → f.prePosition.toNat ≤ 1 → f.weakOption.toNat ≤ 1 →
      let within (lo hi x : Nat) : Nat := if x < lo then lo else if hi < x then hi else x
      let t : State := { s with
        cr := { s.cr with graceInterval := within 0 3600 f.grace.toNat }
        rc := { s.rc with
          handoverInterval := within 1 240 f.handover.toNat
          pairingInterval := within 10 300 f.pairing.toNat
          idleInterval := within 60 3600 f.idle.toNat }
        pcc := { s.pcc with
          stepInterval := within 50 1000 f.step.toNat
          settleInterval := within 0 2000 f.settle.toNat
          prePosition := f.prePosition == 1#8
          weakOption := f.weakOption == 1#8 }
        ls := { s.ls with
          enables := f.enables
          attention := (List.finRange 16).any fun i => s.ls.flags[i].set && f.enables.getLsbD i } }
      exec (.timw f) s = .next (branchReply t .timw .ok (data t)))

/-- SAVE (R181): the copy of every setting is taken, SAVING is entered and the image length 435 is answered; the count of
saves is the model's own (log 12). While a SAVE is in progress every request that writes a setting is refused BUSY and
changes nothing. -/
def Obligations.SavingIsExclusive : Prop :=
  (∀ s : State, branchIdle s → s.ss.saving = none →
     exec .save s = .next (branchReply
       { s with ss := { s.ss with saving := some (s.settings.image s.ss.saves), saves := s.ss.saves + 1 } } .save .ok
       [0x01#8, 0xB3#8])) ∧
  (∀ (c : Instr) (r : ReqName) (s : State), writesSetting c = some r → branchIdle s → s.ss.saving.isSome = true →
     exec c s = .next (branchReply s r .busy []))

/-- The completion of a save (R182): with the EEPROM answering and holding what was written, it holds the copy byte for
byte and SAVE_DONE is raised; otherwise SETTINGS_FAULT is; nothing but the EEPROM, the flag and SAVING changes. What the
EEPROM holds after a save that was not answered, or that reads back with bytes other than the copy's, is the model's choice:
all the writes made, and then the bytes that the command carries (log 13). -/
def Obligations.SaveCompletes : Prop :=
  ∀ s : State, s.resetHeld = false →
    (s.ss.saving = none → ∀ answers differs, exec (.saveCompletion answers differs) s = .next s) ∧
    (∀ copy : List Byte, s.ss.saving = some copy → copy.length = 435 → copy.head? = some 1#8 → eepromCanonical s →
      ∃ m : Memory,
        (∀ a, m.read a = if a < 435 then copy.getD a 0 else Memory.read s.ss.eeprom a) ∧
        exec (.saveCompletion true []) s =
          .next (raised { s with ss := { s.ss with saving := none, eeprom := m } } .saveDone) ∧
        exec (.saveCompletion false []) s =
          .next (raised { s with ss := { s.ss with saving := none, eeprom := m } } .settingsFault) ∧
        ∀ (answers : Bool) (differs : List (Nat × Byte)), differs ≠ [] → (differs.map Prod.fst).Nodup →
          (∀ d ∈ differs, d.1 < 435 ∧ d.2 ≠ copy.getD d.1 0) → ∃ k : Memory,
            (∀ a, k.read a = match differs.lookup a with | some b => b | none => m.read a) ∧
            exec (.saveCompletion answers differs) s =
              .next (raised { s with ss := { s.ss with saving := none, eeprom := k } } .settingsFault))

/-- A restart in SAVING (R182, R178): with the first write made and the last not, the next start-up takes BAD, stands on
the defaults with NOT_CONFIGURED, and raises SETTINGS_FAULT, unless AUTOLOAD_OFF is fitted. -/
def Obligations.InterruptedSaveIsBad : Prop :=
  ∀ (straps : Straps) (pins : Levels) (lost : Bool) (n : Nat) (copy : List Byte) (s : State),
    eepromCanonical s → s.ss.saving = some copy → copy.length = 435 → 1 ≤ n → n ≤ 435 → straps.autoloadOff = false →
    ∃ t, exec (.restart straps pins lost true n) s = .next t ∧ Memory.read t.ss.eeprom 0 = 0#8 ∧
      t.ss.outcome = .bad ∧ t.ss.notConfigured = true ∧ t.ss.saving = none ∧
      t.settings = SettingValues.default ∧ t.ls.flags[StatusFlag.settingsFault.place].set = true

/-! ## Release and handover -/

/-- WNDW and the time-lock contact (R137): the permit, the reply, and at the fall of the permit the session closed: from
PAIRING at once, from OPEN with the effects of leaving OPEN. -/
def Obligations.PermitRisesAndFalls : Prop :=
  ∀ s : State,
    let permit (wndw closed : Bool) : Bool := wndw && (!s.ss.straps.timeLockEnable || closed)
    let after (x : State) (present : Bool) : State :=
      if permit s.rc.wndw s.pins.timeLockClosed && !present then
        match s.rc.session with
        | .closed => x
        | .pairing _ _ => { x with rc := { x.rc with session := .closed } }
        | .opened _ => x.leaveOpen
      else x
    (∀ field : BitVec 8, branchIdle s → 1 < field.toNat →
      exec (.wndw field) s = .next (branchReply s .wndw .badValue [])) ∧
    (∀ field : BitVec 8, branchIdle s → field.toNat ≤ 1 →
      let set := field == 1#8
      let present := permit set s.pins.timeLockClosed
      exec (.wndw field) s = .next (branchReply (after { s with rc := { s.rc with wndw := set } } present) .wndw .ok
        [field, yesNo present])) ∧
    (∀ closed : Bool, s.resetHeld = false →
      exec (.timeLockContact closed) s =
        .next (after { s with pins := { s.pins with timeLockClosed := closed } } (permit s.rc.wndw closed)))

/-- CRED (R139, R140, R141) in each state of the session. -/
def Obligations.CredentialsOpenTheSession : Prop :=
  ∀ (id : BitVec 24) (s : State), panelIdle s →
    let with_ (x : Session) : State := { s with rc := { s.rc with session := x } }
    let out := id.toNat = 0 ∨ 999999 < id.toNat
    let answers (t : State) (w : OutcomeWord) (data : List Byte) : Prop :=
      exec (.cred id) s = .next (panelReply t .cred w data)
    (s.rc.session = .closed →
      (out → answers s .badValue []) ∧ (¬ out → s.permit = false → answers s .badState []) ∧
      (¬ out → s.permit = true → notRostered s id → answers s .deny []) ∧
      (∀ role, ¬ out → s.permit = true → hasRole s id role →
        answers (with_ (.pairing id.toNat s.rc.pairingInterval)) .ok [2#8])) ∧
    (∀ (first : BitVec 24) (left : Nat), s.rc.session = .pairing first.toNat left →
      (out → answers s .badValue []) ∧ (¬ out → notRostered s id → answers s .deny []) ∧
      (∀ role, ¬ out → hasRole s id role → id = first → answers s .same []) ∧
      (¬ out → hasRole s id .teller → id ≠ first → hasRole s first .teller ∨ notRostered s first → answers s .deny []) ∧
      (∀ role, ¬ out → hasRole s id role → id ≠ first → (role = .supervisor ∨ hasRole s first .supervisor) →
        answers (with_ (.opened s.rc.idleInterval)) .ok [3#8])) ∧
    (∀ left, s.rc.session = .opened left →
      (out → answers (with_ (.opened s.rc.idleInterval)) .badValue []) ∧
      (¬ out → answers (with_ (.opened s.rc.idleInterval)) .badState []))

/-- The session's ends (R140, R141, R142, R86): the pairing expiry closes PAIRING, the idle expiry leaves OPEN, PCLS closes
either and is refused in CLOSED. Leaving OPEN closes the session and the open pocket, locks an unopened hatch and leaves an
opened one, withdraws the release requests, and touches no record, handover timer, pocket or setting; with nothing queued
and the hatch not unlocked that is all. -/
def Obligations.SessionCloses : Prop :=
  (∀ s : State, s.resetHeld = false →
     (∀ first left, s.rc.session = .pairing first left →
       exec .pairingExpiry s = .next { s with rc := { s.rc with session := .closed } } ∧ exec .idleExpiry s = .next s) ∧
     (s.rc.session = .closed → exec .pairingExpiry s = .next s ∧ exec .idleExpiry s = .next s) ∧
     (∀ left, s.rc.session = .opened left →
       exec .pairingExpiry s = .next s ∧ exec .idleExpiry s = .next s.leaveOpen)) ∧
  (∀ s : State, panelIdle s →
     (s.rc.session = .closed → exec .pcls s = .next (panelReply s .pcls .badState [])) ∧
     (∀ first left, s.rc.session = .pairing first left →
       exec .pcls s = .next (panelReply { s with rc := { s.rc with session := .closed } } .pcls .ok [])) ∧
     (∀ left, s.rc.session = .opened left →
       exec .pcls s = .next (panelReply (idleRestarted s).leaveOpen .pcls .ok []))) ∧
  (∀ s : State,
     let t := s.leaveOpen
     t.rc.session = .closed ∧ t.rc.openPocket = none ∧ t.rc.guardMark = none ∧
     (s.rc.hatch = .opened → t.rc.hatch = .opened) ∧ (s.rc.hatch ≠ .opened → t.rc.hatch = .locked) ∧
     (s.rc.hatch = .unlocked → t.rc.unopenedTimer = none) ∧
     (∀ q ∈ t.pcc.queue, q.source = .release → q.withdrawn = true ∧ q.stage ≠ .waiting) ∧
     t.cr = s.cr ∧ t.trt = s.trt ∧ t.wau = s.wau ∧ t.ls = s.ls ∧ t.ss = s.ss ∧ t.pins = s.pins ∧
     t.pcc.pockets = s.pcc.pockets ∧ t.pcc.hold = s.pcc.hold ∧ t.pcc.position = s.pcc.position ∧
     t.rc.roster = s.rc.roster ∧ t.rc.wndw = s.rc.wndw ∧ t.rc.policy = s.rc.policy ∧
     t.rc.handoverTimers = s.rc.handoverTimers ∧ t.rc.reader = s.rc.reader ∧ t.rc.lamp = s.rc.lamp ∧
     t.intake.readings = s.intake.readings ∧
     (s.pcc.queue = [] → s.rc.hatch ≠ .unlocked →
       t = { s with rc := { s.rc with session := .closed, openPocket := none, guardMark := none } }))

/-- PRTV (R143, R141): refused in the order of its table; otherwise the request for position (q + 10) mod 21 enters the
queue, where it waits while the drum turns for another request, or settles for one, or is homing. With the weak option on it
cuts a pre-position move short: a settle is abandoned and the arbiter serves, and a turning drum stops at the end of the step
under way; with the option off the move goes on (R89). That the reply counts the new request also where it is served and
gone in the same event is DEDUCED in log 18. -/
def Obligations.PrtvPlacesARequest : Prop :=
  ∀ (pocket : BitVec 8) (s : State), panelIdle s →
    let t := idleRestarted s
    let isOpen := ∃ left, s.rc.session = .opened left
    let standing := s.pcc.queue.countP fun x => x.source == .release
    let answers (x : State) (w : OutcomeWord) (data : List Byte) : Prop :=
      exec (.prtv pocket) s = .next (panelReply x .prtv w data)
    (20 < pocket.toNat → answers t .badValue []) ∧ (pocket.toNat ≤ 20 → ¬ isOpen → answers s .badState []) ∧
    (pocket.toNat ≤ 20 → isOpen → s.pcc.drum = .fault → answers t .badState []) ∧
    (pocket.toNat ≤ 20 → isOpen → s.pcc.drum ≠ .fault → 3 ≤ standing → answers t .busy []) ∧
    (∀ q : Fin 21, pocket.toNat = q.val → isOpen → s.pcc.drum ≠ .fault → standing < 3 →
      let r : PosRequest :=
        { source := .release, target := Fin.ofNat 21 (q.val + 10), pocket := q, stage := .waiting, withdrawn := false }
      let goes (drum : Drum) : State := { t with pcc := { s.pcc with queue := s.pcc.queue ++ [r], drum } }
      let data := [byte (standing + 1)]
      (s.pcc.drum = .idle → answers (goes .idle).serve .ok data) ∧
      (∀ x, s.pcc.drum = .homing x → answers (goes (.homing x)) .ok data) ∧
      (∀ m, s.pcc.drum = .settle m →
        (m.prePosition = true → s.pcc.weakOption = true → answers (goes .idle).serve .ok data) ∧
        (m.prePosition = false ∨ s.pcc.weakOption = false → answers (goes (.settle m)) .ok data)) ∧
      (∀ m left, s.pcc.drum = .moving m left →
        (∀ k, m.prePosition = true → s.pcc.weakOption = true → s.pcc.position = some k →
          let next : Fin 21 := Fin.ofNat 21 (match m.dir with | .forward => k.val + 1 | .backward => k.val + 20)
          answers (goes (.moving { m with target := next } left)) .ok data) ∧
        (m.prePosition = false ∨ s.pcc.weakOption = false → answers (goes (.moving m left)) .ok data)))

/-- NOTG (R150, R141): refused in the order of its table; otherwise the record is staged from the open pocket, the accept
lamp is lit, and a staging from pocket 0 tests the chute. -/
def Obligations.NotgStagesATaglessBag : Prop :=
  ∀ (n : BitVec 16) (s : State), panelIdle s →
    let t := idleRestarted s
    let isOpen := ∃ left, s.rc.session = .opened left
    let answers (x : State) (w : OutcomeWord) (data : List Byte) : Prop :=
      exec (.notg n) s = .next (panelReply x .notg w data)
    (n = 0#16 → answers t .badValue []) ∧ (n ≠ 0#16 → ¬ isOpen ∨ s.rc.openPocket = none → answers t .badState []) ∧
    (∀ q, n ≠ 0#16 → isOpen → s.rc.openPocket = some q →
      (∀ x ∈ s.cr.records, x.receipt = n.toNat → x.receipt ∉ s.cr.lists[q] ∨ x.state ≠ .held ∨ x.tag ≠ none) →
      answers t .notFound []) ∧
    (∀ q r, n ≠ 0#16 → isOpen → s.rc.openPocket = some q → holds s r → r.receipt = n.toNat → r.receipt ∈ s.cr.lists[q] →
      r.state = .held → r.tag = none →
      let need := countRequired s.rc.policy r
      let x := lit (staged t r q need) .accept
      answers (if q = 0 then x.retest else x) .ok [yesNo need])

/-- A hatch scan stages the earliest HELD record with the tag in the open pocket's list (R147, R17, R10, R77, R153). -/
def Obligations.HatchScanStages : Prop :=
  ∀ (atMs : Nat) (tag : Tag) (q : Fin 21) (r : Record) (before after : List Nat) (s : State), s.resetHeld = false →
    s.rc.reader.holding = some (.good tag) → tag ≠ 0#32 → tag ≠ 0xFFFFFFFF#32 → s.rc.openPocket = some q →
    (∀ g, s.rc.guardMark = some g → g.tag = tag → g.atMs + 2000 ≤ atMs) →
    s.cr.lists[q] = before ++ r.receipt :: after → holds s r → r.state = .held → r.tag = some tag →
    (∀ x ∈ s.cr.records, x.receipt ∈ before → x.state ≠ .held ∨ x.tag ≠ some tag) →
    let taken : State := { s with rc := { s.rc with reader := { s.rc.reader with holding := none } } }
    let x := staged (idleRestarted taken) r q (countRequired s.rc.policy r)
    let y : State := lit { x with rc := { x.rc with guardMark := some { tag, atMs } } } .accept
    exec (.hatchScan atMs) s = .next (if q = 0 then y.retest else y)

/-- Hatch reads that stage nothing (R146, R148, R149): a bad read and a number that is no tag light no lamp, whatever
pocket is open (that such a number restarts the idle timer at an open pocket is DEDUCED in log 17), a tag with no pocket open
is refused, and a repeat within 2 s of a staging of that tag is accepted without effect. A scan of no HELD
record of the open pocket returns the claiming record where it is STAGED or OVERDUE and fits, and is refused otherwise;
WRONG_POCKET_SCAN only for a record HELD in another pocket. -/
def Obligations.HatchReadsOtherwise : Prop :=
  (∀ (atMs : Nat) (s : State), s.resetHeld = false →
     let taken : State := { s with rc := { s.rc with reader := { s.rc.reader with holding := none } } }
     (s.rc.reader.holding = none → exec (.hatchScan atMs) s = .next s) ∧
     (s.rc.reader.holding = some .bad → exec (.hatchScan atMs) s = .next taken) ∧
     (∀ tag, s.rc.reader.holding = some (.good tag) → tag = 0#32 ∨ tag = 0xFFFFFFFF#32 → s.rc.openPocket = none →
       exec (.hatchScan atMs) s = .next taken) ∧
     (∀ tag q, s.rc.reader.holding = some (.good tag) → tag = 0#32 ∨ tag = 0xFFFFFFFF#32 → s.rc.openPocket = some q →
       exec (.hatchScan atMs) s = .next (idleRestarted taken)) ∧
     (∀ tag, s.rc.reader.holding = some (.good tag) → tag ≠ 0#32 → tag ≠ 0xFFFFFFFF#32 → s.rc.openPocket = none →
       exec (.hatchScan atMs) s = .next (lit taken .refuse)) ∧
     (∀ tag q g, s.rc.reader.holding = some (.good tag) → tag ≠ 0#32 → tag ≠ 0xFFFFFFFF#32 → s.rc.openPocket = some q →
       s.rc.guardMark = some g → g.tag = tag → atMs < g.atMs + 2000 →
       exec (.hatchScan atMs) s = .next (lit (idleRestarted taken) .accept))) ∧
  (∀ (atMs : Nat) (tag : Tag) (q : Fin 21) (s : State), s.resetHeld = false →
     s.rc.reader.holding = some (.good tag) → tag ≠ 0#32 → tag ≠ 0xFFFFFFFF#32 → s.rc.openPocket = some q →
     (∀ g, s.rc.guardMark = some g → g.tag = tag → g.atMs + 2000 ≤ atMs) →
     (∀ x ∈ s.cr.records, x.receipt ∈ s.cr.lists[q] → x.state ≠ .held ∨ x.tag ≠ some tag) →
     let taken : State := { s with rc := { s.rc with reader := { s.rc.reader with holding := none } } }
     let t := idleRestarted taken
     (unclaimed s tag → exec (.hatchScan atMs) s = .next (lit t .refuse)) ∧
     (∀ r, claims s tag r →
       (∀ size, r.state = .staged ∨ r.state = .overdue → r.size = some size → s.pcc.pockets[q].capacity ≠ 0 →
         s.pcc.pockets[q].used + s.pcc.heldUnits q + size ≤ s.pcc.pockets[q].capacity →
         exec (.hatchScan atMs) s = .next (lit (returned t r q) .accept)) ∧
       (∀ size, r.state = .staged ∨ r.state = .overdue → r.size = some size → 1 ≤ size →
         s.pcc.pockets[q].capacity < s.pcc.pockets[q].used + s.pcc.heldUnits q + size →
         exec (.hatchScan atMs) s = .next (lit t .refuse)) ∧
       (r.state = .held → exec (.hatchScan atMs) s = .next (lit (raised t .wrongPocketScan) .refuse)) ∧
       (r.state = .grace ∨ r.state = .advised ∨ r.state = .missing ∨ r.state = .intake →
         exec (.hatchScan atMs) s = .next (lit t .refuse))))

/-- The count policy (R151): count required is yes when the verdict is PENDING or a term is true of the record. -/
def Obligations.CountPolicyDecides : Prop :=
  ∀ (policy : List PolicyTerm) (r : Record),
    let condition : Condition → Prop
      | .inside => r.verdict = some .inside
      | .light => r.verdict = some .light
      | .heavy => r.verdict = some .heavy
      | .wrong => r.verdict = some .wrong
      | .unadvised => r.mark = .none
      | .lateAdvice => r.mark = .late
      | .slipSum => r.slipMismatch = true
      | .overRange => r.overRange = true
      | .unsteady => r.unsteady = true
      | .exception => r.cause ≠ none
      | .interrupted => r.interrupted = true
    countRequired policy r = true ↔
      r.verdict = some .pending ∨ ∃ t ∈ policy, condition t.condition ∧ t.invert = false ∨
        ¬ condition t.condition ∧ t.invert = true

/-- CNFM (R155, R156, R12): refused in the order of its table with nothing changed; otherwise the record is removed with
its index entry and its handover timer, the reply carries its retirement summary, and the freed slot may open the chute. -/
def Obligations.CnfmRetiresTheRecord : Prop :=
  ∀ (n : BitVec 16) (counted : BitVec 40) (ids : List (BitVec 24)) (s : State), branchIdle s →
    let bad := n.toNat = 0 ∨ 99999999999 < counted.toNat ∨ (ids.length ≠ 1 ∧ ids.length ≠ 2) ∨
      ∃ id ∈ ids, id.toNat = 0 ∨ 999999 < id.toNat
    let dual := ∃ a b, ids = [a, b] ∧ a ≠ b ∧ (hasRole s a .supervisor ∨ hasRole s b .supervisor)
    let answers (t : State) (w : OutcomeWord) (data : List Byte) : Prop :=
      exec (.cnfm n counted ids) s = .next (branchReply t .cnfm w data)
    (bad → answers s .badValue []) ∧
    (¬ bad → (∀ x ∈ s.cr.records, x.receipt ≠ n.toNat) → answers s .notFound []) ∧
    (∀ r, ¬ bad → holds s r → r.receipt = n.toNat →
      (r.state ≠ .staged → r.state ≠ .overdue → answers s .badState []) ∧
      (r.state = .staged ∨ r.state = .overdue → (∃ id ∈ ids, notRostered s id) → answers s .deny []) ∧
      (r.state = .staged ∨ r.state = .overdue → (∀ id ∈ ids, ∃ role, hasRole s id role) → r.countRequired = true →
        ¬ dual → answers s .second []) ∧
      (r.state = .staged ∨ r.state = .overdue → (∀ id ∈ ids, ∃ role, hasRole s id role) →
        (r.countRequired = false ∨ dual) →
        answers (withoutRecord s r).retest (if r.state = .overdue then .late else .ok) (r.retirement counted.toNat)))

/-- The grace and handover timers of a record (R9, R153): GRACE goes to HELD with mark NONE and GRACE_EXPIRED, STAGED goes
to OVERDUE with its timer gone and OVERDUE raised; no other record, and no total, changes. An expiry for a record whose
timer does not run is nothing. -/
def Obligations.RecordTimersExpire : Prop :=
  ∀ s : State, s.resetHeld = false →
    (∀ r, holds s r → r.state = .grace → r.grace.isSome = true →
      exec (.graceExpiry r.receipt) s = .next (raised
        { s with cr := { s.cr with records := changed s r fun x => { x with state := .held, grace := none } } }
        .graceExpired)) ∧
    (∀ r, holds s r → r.state = .staged → (∃ h ∈ s.rc.handoverTimers, h.1 = r.receipt) →
      exec (.handoverExpiry r.receipt) s = .next (raised
        { s with
          cr := { s.cr with records := changed s r fun x => { x with state := .overdue } }
          rc := { s.rc with handoverTimers := s.rc.handoverTimers.filter fun h => h.1 ≠ r.receipt } } .overdue)) ∧
    (∀ n, (∀ x ∈ s.cr.records, x.receipt = n → x.state ≠ .grace ∨ x.grace = none) →
      exec (.graceExpiry n) s = .next s) ∧
    (∀ n, (∀ h ∈ s.rc.handoverTimers, h.1 ≠ n) → exec (.handoverExpiry n) s = .next s)

/-- The hatch (R144, R145, R146): an unlocked hatch that opens is OPENED with its timer stopped; shut, it is locked and the
open pocket ends; the unopened timer locks it; a lamp goes out. The arbiter then serves where the interlock is SECURE, and in
HOMING before the search the sensor's reading shut begins the search, which ends at once where the mark is read (R93;
what its sensor reads is log 9). That LAMP_EXPIRY puts out a lamp lit by NOTG as one lit by a read is DEDUCED in log 25. -/
def Obligations.HatchOpensAndShuts : Prop :=
  ∀ s : State, s.resetHeld = false →
    let locked (x : State) : State :=
      { x with rc := { x.rc with hatch := .locked, openPocket := none, guardMark := none, unopenedTimer := none } }
    let reads (b : Bool) : State := { s with pins := { s.pins with hatchShut := b } }
    (s.rc.hatch = .unlocked → exec (.hatchShutSensor false) s =
      .next { reads false with rc := { s.rc with hatch := .opened, unopenedTimer := none } }) ∧
    (s.rc.hatch = .unlocked → exec (.hatchShutSensor true) s = .next (reads true)) ∧
    (s.rc.hatch = .opened → exec (.hatchShutSensor false) s = .next (reads false)) ∧
    (s.rc.hatch = .opened → s.pcc.drum ≠ .homing none →
      exec (.hatchShutSensor true) s = .next (locked (reads true)).serve) ∧
    (s.rc.hatch = .locked → s.pcc.drum ≠ .homing none → exec (.hatchShutSensor true) s = .next (reads true).serve) ∧
    (∀ x : State, s.pcc.drum = .homing none →
      (s.rc.hatch = .locked ∧ x = reads true ∨ s.rc.hatch = .opened ∧ x = locked (reads true)) →
      (s.pins.refMark = false → exec (.hatchShutSensor true) s =
        .next { x with pcc := { s.pcc with drum := .homing (some
          { steps := 0, stepMs := s.pcc.stepInterval, timerMs := 43 * s.pcc.stepInterval }) } }) ∧
      (s.pins.refMark = true → exec (.hatchShutSensor true) s =
        .next (State.afterDrumChange
          { x with pcc := { s.pcc with drum := .idle, position := some 0, lastDir := some .forward } }).serve)) ∧
    (s.rc.hatch = .unlocked → s.rc.unopenedTimer.isSome = true →
      exec .unopenedTimerExpiry s = .next (locked s).serve) ∧
    (s.rc.unopenedTimer = none → exec .unopenedTimerExpiry s = .next s) ∧
    exec .lampExpiry s = .next { s with rc := { s.rc with lamp := none } }

/-! ## The drop -/

/-- The drawer (R99, R100): an opening in READY begins a drop, a shut with a bag takes the size class and starts the tag
window, a shut without one tests the chute, the drawer timer raises DRAWER_HELD once; the sensors are read in every
phase. -/
def Obligations.DrawerOpensAndShuts : Prop :=
  ∀ s : State, s.resetHeld = false →
    let opened : State := { s with pins := { s.pins with drawerShut := false } }
    let shut (bag : Bool) (beams : BitVec 4) : State :=
      { s with pins := { s.pins with drawerShut := true, bagPresent := bag, beams } }
    let class_ (beams : BitVec 4) : Nat :=
      if beams.getLsbD 3 then 4 else if beams.getLsbD 2 then 3 else if beams.getLsbD 1 then 2 else 1
    (s.intake.phase = .ready → exec .drawerOpened s =
      .next { opened with intake := { s.intake with phase := .loading, readings := {}, drawerTimer := some 120000 } }) ∧
    (s.intake.phase ≠ .ready → exec .drawerOpened s = .next opened) ∧
    (∀ bag beams, s.intake.phase ≠ .loading → exec (.drawerShut bag beams) s = .next (shut bag beams)) ∧
    (∀ beams, s.intake.phase = .loading → exec (.drawerShut true beams) s =
      .next { shut true beams with intake := { s.intake with
        phase := .identify, readings := { size := some (class_ beams) }, drawerTimer := none, tagWindow := some 2000
        reader := { receive := none, holding := none } } }) ∧
    (∀ beams, s.intake.phase = .loading → exec (.drawerShut false beams) s =
      .next (State.testChute { shut false beams with intake := { s.intake with drawerTimer := none } })) ∧
    (s.intake.phase = .loading → s.intake.drawerTimer.isSome = true → exec .drawerTimerExpiry s =
      .next (raised { s with intake := { s.intake with drawerTimer := none } } .drawerHeld)) ∧
    (s.intake.phase ≠ .loading ∨ s.intake.drawerTimer = none → exec .drawerTimerExpiry s = .next s)

/-- The tag readers (R101, R102): a read waits in the holding slot, and is lost with READER_OVERRUN while the read before
it waits; the read taken in IDENTIFY makes the first tag or the second-tag mark, and has no other effect. -/
def Obligations.ReadersHoldOneRead : Prop :=
  ∀ s : State, s.resetHeld = false →
    let drawer (h : Option TagRead) : State :=
      { s with intake := { s.intake with reader := { receive := none, holding := h } } }
    let hatch (h : Option TagRead) : State := { s with rc := { s.rc with reader := { receive := none, holding := h } } }
    let taken (x : Readings) : State :=
      { s with intake := { s.intake with reader := { s.intake.reader with holding := none }, readings := x } }
    let x := s.intake.readings
    (∀ read, s.intake.reader.holding = none → exec (.tagReadComplete .drawer read) s = .next (drawer (some read))) ∧
    (∀ read y, s.intake.reader.holding = some y →
      exec (.tagReadComplete .drawer read) s = .next (raised (drawer (some y)) .readerOverrun)) ∧
    (∀ read, s.rc.reader.holding = none → exec (.tagReadComplete .hatch read) s = .next (hatch (some read))) ∧
    (∀ read y, s.rc.reader.holding = some y →
      exec (.tagReadComplete .hatch read) s = .next (raised (hatch (some y)) .readerOverrun)) ∧
    (s.intake.reader.holding = none → exec .drawerReadTaken s = .next s) ∧
    (∀ read, s.intake.reader.holding = some read →
      s.intake.phase ≠ .identify ∨ read = .bad ∨ read = .good 0#32 ∨ read = .good 0xFFFFFFFF#32 →
      exec .drawerReadTaken s = .next (taken x)) ∧
    (∀ t, s.intake.reader.holding = some (.good t) → s.intake.phase = .identify → t ≠ 0#32 → t ≠ 0xFFFFFFFF#32 →
      (x.firstTag = none → exec .drawerReadTaken s = .next (taken { x with firstTag := some t })) ∧
      (x.firstTag = some t → exec .drawerReadTaken s = .next (taken x)) ∧
      (∀ u, x.firstTag = some u → u ≠ t → exec .drawerReadTaken s = .next (taken { x with secondTag := true })))

/-- The end of the tag window (R5, R103, R117): the drop's record is the matched ADVISED or MISSING one or a new one with
its tag, its claim and its cause, and the sequencer goes on to WEIGH, or to JAMMED without a hold. That the record of a drop
that jams here has INTERRUPTED clear is the model's choice (DESIGN CHOICE in log 26), and that no free slot stops the model
is its own too (log 15). -/
def Obligations.IdentificationOpensARecord : Prop :=
  ∀ s : State, s.resetHeld = false →
    (s.intake.phase ≠ .identify ∨ s.intake.tagWindow = none → exec .tagWindowExpiry s = .next s) ∧
    (s.intake.phase = .identify → s.intake.tagWindow.isSome = true →
      let after (t : State) : State :=
        if s.pcc.hold.isSome then
          { t with intake := { s.intake with phase := .weigh, tagWindow := none, weighTimer := some 3000 } }
        else (jammedDrop { t with intake := { s.intake with tagWindow := none } }).serve
      let isNew (tag : Option Tag) (claim : Bool) (cause : Option Cause) : Prop :=
        (s.cr.records.length < 384 → receiptsOrdered s → ∃ n before rest, freshPlace s n before rest ∧
          exec .tagWindowExpiry s = .next (after (withNew s before rest
            { receipt := n, tag, claims := claim, state := .intake, location := .drawer, cause
              size := s.intake.readings.size }))) ∧
        (384 ≤ s.cr.records.length → exec .tagWindowExpiry s = .fault .noFreeSlot)
      (s.intake.readings.firstTag = none → isNew none false (some .noTag)) ∧
      (∀ t, s.intake.readings.firstTag = some t → s.intake.readings.secondTag = true →
        isNew (some t) false (some .twoTags)) ∧
      (∀ t, s.intake.readings.firstTag = some t → s.intake.readings.secondTag = false →
        (unclaimed s t → isNew (some t) true none) ∧
        (∀ r, claims s t r → r.state ≠ .advised → r.state ≠ .missing → isNew (some t) false (some .dupTag)) ∧
        (∀ r, claims s t r → r.state = .advised ∨ r.state = .missing →
          exec .tagWindowExpiry s = .next (after { s with cr := { s.cr with
            records := changed s r fun x =>
              { x with state := .intake, location := .drawer, size := s.intake.readings.size } } }))))

/-- The scale (R104, R105): in WEIGH the first steady reading is taken, clamped to 0 and to full scale with OVER_RANGE, and
at the timer the last unsteady one, or 0; the mass and the marks go into the INTAKE record, and ROUTE follows in the same
event. -/
def Obligations.ScaleValueIsTaken : Prop :=
  ∀ s : State, s.resetHeld = false →
    let weighing := s.intake.phase = .weigh ∧ s.intake.weighTimer.isSome = true
    let taken (v : Int) (unsteady : Bool) : State :=
      let m : Nat := if v < 0 then 0 else if 200000 < v then 200000 else v.toNat
      let above : Bool := decide (200000 < v)
      { s with
        cr := { s.cr with records := s.cr.records.map fun r =>
          if r.state = .intake then { r with mass := some m, overRange := above, unsteady } else r }
        intake := { s.intake with
          phase := .route, weighTimer := none
          readings := { s.intake.readings with mass := some m, overRange := above, unsteady } } }
    (∀ v, weighing → exec (.scaleReading v true) s = .next (taken v false).takeRoute) ∧
    (∀ v, weighing → exec (.scaleReading v false) s = .next
      { s with intake := { s.intake with readings := { s.intake.readings with lastReading := some v } } }) ∧
    (∀ v, weighing → s.intake.readings.lastReading = some v → exec .weighTimerExpiry s = .next (taken v true).takeRoute) ∧
    (weighing → s.intake.readings.lastReading = none → exec .weighTimerExpiry s = .next (taken 0 true).takeRoute) ∧
    (∀ v steady, ¬ weighing → exec (.scaleReading v steady) s = .next s) ∧
    (¬ weighing → exec .weighTimerExpiry s = .next s)

/-- The route of a drop (R31, R34, R37 to R42): an identification cause ends it; otherwise the candidates that match the
tag are tried in their order, closed ones left out, for the cap, for the first pocket of the group in which the bag fits,
and for the audit. -/
def Obligations.RouteFollowsTheStages : Prop :=
  ∀ (s : State) (r : Record) (size : Nat), r.size = some size → 1 ≤ size →
    let at_ : Option Cause → Prop := fun c => c = some .noTag ∨ c = some .twoTags ∨ c = some .dupTag
    let matching : List Candidate :=
      if s.trt.general then
        [⟨.general, { enabled := true, base := 0, prefixLength := 8, closed := false, audit := false, tolSet := 0, cap := 0
                      group := (List.finRange 21).drop 1 }⟩]
      else (List.finRange 8).filterMap fun n =>
        let e := s.trt.entries[n]
        match r.tag with
        | none => none
        | some t =>
          if e.enabled ∧ (List.range e.prefixLength).all (fun i => t.getMsbD i == e.base.getMsbD i) then
            some ⟨.entry n, e⟩ else none
    let capped (e : RangeEntry) : Prop := 0 < e.cap ∧ ∃ a, r.advice = some a ∧
      e.cap ≤ s.cr.records.countP fun x => decide (x.receipt ≠ r.receipt ∧
        x.advice.map Advice.customer = some a.customer ∧
        (x.state = .intake ∨ x.state = .held ∨ x.state = .staged ∨ x.state = .overdue))
    (at_ r.cause → s.route r = { pocket := 0, range := none, tolSet := 0, nominal := none, cause := r.cause }) ∧
    (¬ at_ r.cause → matching = [] →
      s.route r = { pocket := 0, range := none, tolSet := 0, nominal := none, cause := some .noRange }) ∧
    (∀ c rest, ¬ at_ r.cause → matching = c :: rest → (∀ x ∈ matching, x.entry.closed = true) →
      s.route r = { pocket := 0, range := some c.ref, tolSet := c.entry.tolSet, nominal := none
                    cause := some .rangeClosed }) ∧
    (∀ before c after, ¬ at_ r.cause → (matching.filter fun x => !x.entry.closed) = before ++ c :: after →
      (∀ x ∈ before, ¬ capped x.entry ∧ ∀ p ∈ x.entry.group, ¬ hasRoom s p size) →
      (capped c.entry → s.route r =
        { pocket := 0, range := some c.ref, tolSet := c.entry.tolSet, nominal := none, cause := some .cap }) ∧
      (∀ g p rest, ¬ capped c.entry → c.entry.group = g ++ p :: rest → (∀ x ∈ g, ¬ hasRoom s x size) → hasRoom s p size →
        s.route r =
          if c.entry.audit then
            { pocket := 0, range := some c.ref, tolSet := c.entry.tolSet, nominal := some p, cause := some .audit }
          else { pocket := p, range := some c.ref, tolSet := c.entry.tolSet, nominal := none, cause := none }) ∧
      (¬ capped c.entry → (∀ p ∈ c.entry.group, ¬ hasRoom s p size) → after = [] → s.route r =
        { pocket := 0, range := some c.ref, tolSet := c.entry.tolSet, nominal := none, cause := some .noRoom }))

/-- The route decision is one event (R106, R107, R42, R53, R74): the route is written and the record is PENDING, the hold
moves to the chosen pocket, POSITION is entered, the job is queued, and the positioning request is offered, or the drop
jams in FAULT. Without a free place in the job queue, and outside ROUTE, it is nothing. -/
def Obligations.RouteDecisionIsOneEvent : Prop :=
  ∀ s : State, s.resetHeld = false →
    (s.intake.phase ≠ .route ∨ 6 ≤ s.wau.queue.length → exec .routeDecision s = .next s) ∧
    (∀ r, s.intake.phase = .route → s.wau.queue.length ≤ 5 → inIntake s r →
      let x := s.route r
      let t : State := { s with
        cr := { s.cr with records := changed s r fun y =>
          { y with range := x.range, tolSet := x.tolSet, nominal := x.nominal, cause := x.cause
                   verdict := some .pending } }
        pcc := { s.pcc with hold := some { pocket := x.pocket, units := r.size.getD 0 } }
        intake := { s.intake with
          phase := .position, readings := { s.intake.readings with chosen := some x.pocket } }
        wau := { s.wau with queue := s.wau.queue ++ [{ receipt := r.receipt, tag := r.tag }] } }
      (s.pcc.drum = .fault → exec .routeDecision s = .next (jammedDrop t.startWau)) ∧
      (s.pcc.drum ≠ .fault → exec .routeDecision s = .next (t.startWau.enqueue
        { source := .intake, target := x.pocket, pocket := x.pocket, stage := .waiting, withdrawn := false })))

/-- Tip completion (R108, R109, R7, R8, R76, R88): the INTAKE record is completed into the chosen pocket with the hold and
the station freed, the drum pre-positions or serves, and the chute is tested; the tip timer jams the drop. -/
def Obligations.TipPlacesTheBag : Prop :=
  ∀ s : State, s.resetHeld = false →
    (s.intake.phase ≠ .tip → exec .tipCompletion s = .next s ∧ exec .tipTimerExpiry s = .next s) ∧
    (s.intake.phase = .tip → s.intake.tipTimer.isSome = true →
      exec .tipTimerExpiry s = .next (jammedDrop s).serve) ∧
    (∀ r p, s.intake.phase = .tip → inIntake s r → s.intake.readings.chosen = some p →
      let t := completed { s with pcc := { s.pcc with hold := none } } r p
      let u : State := { t with
        pcc := { t.pcc with
          queue := s.pcc.queue.filter fun q => q.source ≠ .intake
          lastIntake := if p = 0 then s.pcc.lastIntake else some (p, r.range) }
        intake := { s.intake with tipTimer := none, readings := {} } }
      let free := s.pcc.prePosition = true ∧ u.pcc.queue = [] ∧ s.rc.hatch = .locked ∧ s.pins.hatchShut = true ∧
        s.pcc.drum = .idle
      (¬ free → exec .tipCompletion s = .next u.serve.testChute) ∧
      (free → u.pcc.lastIntake = none → exec .tipCompletion s = .next u.testChute) ∧
      (∀ q range c target dir n, free → u.pcc.lastIntake = some (q, range) → s.pcc.position = some c →
        (u.pcc.classOf q = .opened ∧ target = q ∨
          u.pcc.classOf q ≠ .opened ∧ ∃ front between rest,
            (match range with
              | some (.entry i) => s.trt.entries[i].group
              | some .general => (List.finRange 21).drop 1
              | none => []) = front ++ q :: (between ++ target :: rest) ∧
            q ∉ front ∧ (∀ x ∈ between, u.pcc.classOf x ≠ .opened) ∧ u.pcc.classOf target = .opened) →
        (shorterWay c target = some (dir, n) →
          exec .tipCompletion s = .next (State.testChute { u with pcc := setOff u.pcc target dir n true })) ∧
        (c = target → exec .tipCompletion s = .next u.testChute)) ∧
      (∀ q range, free → u.pcc.lastIntake = some (q, range) → u.pcc.classOf q ≠ .opened →
        q ∉ (match range with
          | some (.entry i) => s.trt.entries[i].group
          | some .general => (List.finRange 21).drop 1
          | none => []) → exec .tipCompletion s = .next u.testChute) ∧
      (∀ q range front rest, free → u.pcc.lastIntake = some (q, range) →
        (match range with
          | some (.entry i) => s.trt.entries[i].group
          | some .general => (List.finRange 21).drop 1
          | none => []) = front ++ q :: rest → q ∉ front → (∀ x ∈ q :: rest, u.pcc.classOf x ≠ .opened) →
        exec .tipCompletion s = .next u.testChute))

/-- JAMC (R111 to R114): refused in the order of its table with nothing changed; otherwise the jammed drop's record is
completed into the pocket named, or is STAGED outside with count required and its handover timer, the flag JAMMED is
cleared, and the sequencer leaves JAMMED by the test of the chute. -/
def Obligations.JamcSettlesTheDrop : Prop :=
  ∀ (id : BitVec 24) (d : BitVec 8) (s : State), branchIdle s →
    let answers (t : State) (w : OutcomeWord) (data : List Byte) : Prop :=
      exec (.jamc id d) s = .next (branchReply t .jamc w data)
    let isCode := d.toNat ≤ 20 ∨ d = 255#8
    let cleared (r : Record) : State :=
      { s with cr := { s.cr with records := changed s r fun x => { x with jammed := false } } }
    let left (t : State) : State := State.testChute { t with intake := { t.intake with readings := {} } }
    (¬ isCode → answers s .badValue []) ∧
    (isCode → s.intake.phase ≠ .jammed → answers s .badState []) ∧
    (isCode → s.intake.phase = .jammed → notRostered s id ∨ hasRole s id .teller → answers s .deny []) ∧
    (∀ r size, s.intake.phase = .jammed → hasRole s id .supervisor → inIntake s r → r.size = some size → 1 ≤ size →
      (∀ p : Fin 21, d.toNat = p.val → ¬ hasRoom s p size → answers s .noRoom []) ∧
      (∀ p : Fin 21, d.toNat = p.val → hasRoom s p size →
        let grace := r.claims = true ∧ r.mark = .none ∧ 0 < s.cr.graceInterval
        answers (left (completed (cleared r) r p)) .ok
          { r with
            jammed := false, location := .pocket p, state := if grace then .grace else .held
            grace := if grace then some s.cr.graceInterval else none, dropTime := s.ls.clock }.summary) ∧
      (d = 255#8 →
        let gone (x : Record) : Record :=
          { x with state := .staged, location := .out, countRequired := true, jammed := false }
        answers (left { s with
          cr := { s.cr with records := changed s r gone }
          rc := { s.rc with
            handoverTimers := insertTimer r.receipt s.rc.handoverInterval
              (s.rc.handoverTimers.filter fun h => h.1 ≠ r.receipt) } }) .ok (gone r).summary))

/-! ## The weighing arithmetic unit -/

/-- A job starts with the values that then stand, jobs without a living record before it discarded (R56); a job completes
by writing its result, unless its record is gone, is no longer PENDING, or has a later job, and leaves the queue (R58,
R59). A place that this frees while a drop waits in ROUTE is taken by its route decision in the same event (R54, R55,
R106). -/
def Obligations.JobsStartAndComplete : Prop :=
  ∀ s : State, s.resetHeld = false →
    let goes (t : State) : Result := if s.intake.phase = .route then exec .routeDecision t else .next t
    let kept : RecState → Prop := fun x => x ≠ .advised ∧ x ≠ .missing
    let living (j : Job) (r : Record) : Prop := holds s r ∧ r.receipt = j.receipt ∧ r.tag = j.tag ∧ kept r.state
    let dead (j : Job) : Prop := ∀ x ∈ s.cr.records, x.receipt = j.receipt → x.tag ≠ j.tag ∨ ¬ kept x.state
    let wau (q : List Job) (w : Option JobInputs) : State := { s with wau := { s.wau with queue := q, working := w } }
    (s.wau.working.isSome = true → exec .jobStart s = goes s) ∧
    (s.wau.working = none → (∀ j ∈ s.wau.queue, dead j) → exec .jobStart s = goes (wau [] none)) ∧
    (∀ gone j rest r, s.wau.working = none → s.wau.queue = gone ++ j :: rest → (∀ x ∈ gone, dead x) → living j r →
      exec .jobStart s = goes (wau (j :: rest) (some
        { mass := r.mass, tol := s.wau.tols[r.tolSet]
          advice := r.advice.map fun a =>
            (a.lines.map fun l => { count := l.count, denom := s.wau.denoms[l.denom] }, a.declared) }))) ∧
    (s.wau.working = none → exec .jobCompletion s = .next s) ∧
    (∀ inputs j rest, s.wau.working = some inputs → s.wau.queue = j :: rest →
      (∀ r, living j r → r.verdict = some .pending → j ∉ rest →
        let c := inputs.check
        let t : State := wau rest none
        exec .jobCompletion s = goes (State.startWau { t with cr := { t.cr with
          records := changed s r fun x => { x with
            verdict := c.verdict, deviation := c.deviation, valueSum := c.valueSum
            slipMismatch := c.slipMismatch } } })) ∧
      (dead j ∨ j ∈ rest ∨ (∃ r, living j r ∧ r.verdict ≠ some .pending) →
        exec .jobCompletion s = goes (State.startWau (wau rest none))))

/-- The breakdown check (R62 to R68): the expected mass, the spread rounded half up once, the window with its lower edge at
0 or above, the verdict, which is never WRONG, the deviation rounded half up and saturated, and the value sum. The
plausibility check (R69): LIGHT below, HEAVY above, WRONG where the limits cross and the mass lies between them. Without a
measured mass there is no judgement of mass (R60). -/
def Obligations.WeighingChecks : Prop :=
  (∀ (t : ToleranceSet) (lines : List CheckLine) (declared m : Nat),
     let E := t.tare + (lines.map fun l => l.count * l.denom.mass).sum
     let S := t.tareSpread + ((lines.map fun l => l.count * l.denom.mass * l.denom.spread).sum + 500) / 1000
     let V := (lines.map fun l => l.count * l.denom.face).sum
     let D : Int := (m : Int) * 100 - E
     let tenths : Int := if 2 * (D % 100) < 100 then D / 100 else D / 100 + 1
     let c : CheckResult := JobInputs.check { mass := some m, tol := t, advice := some (lines, declared) }
     c = { verdict := some (if (m : Int) * 100 < (E : Int) - S - t.lower then .light
                            else if E + S + t.upper < m * 100 then .heavy else .inside)
           deviation := some (if tenths < -32768 then -32768 else if 32767 < tenths then 32767 else tenths)
           valueSum := some V, slipMismatch := decide (V ≠ declared) } ∧
     c.verdict ≠ some .wrong ∧
     JobInputs.check { mass := none, tol := t, advice := some (lines, declared) } =
       { verdict := none, deviation := none, valueSum := some V, slipMismatch := decide (V ≠ declared) }) ∧
  (∀ (t : ToleranceSet) (m : Nat),
     let v (x : Option Verdict) : CheckResult := { verdict := x, deviation := none, valueSum := none, slipMismatch := false }
     let c := JobInputs.check { mass := some m, tol := t, advice := none }
     (t.plausMin ≤ m → m ≤ t.plausMax → c = v (some .inside)) ∧
     (m < t.plausMin → m ≤ t.plausMax → c = v (some .light)) ∧
     (t.plausMin ≤ m → t.plausMax < m → c = v (some .heavy)) ∧
     (m < t.plausMin → t.plausMax < m → c = v (some .wrong)) ∧
     JobInputs.check { mass := none, tol := t, advice := none } = v none)

/-! ## The carousel -/

/-- The arbiter (R84, R85, R80): where the carousel is IDLE with the interlock SECURE and no station held, the oldest
waiting request is served, the intake's first: its move sets off the shorter way round, by way of SETTLE where it
reverses, or it arrives at once. The settle interval's end begins the first step. -/
def Obligations.CarouselServes : Prop :=
  ∀ s : State, s.resetHeld = false →
    let ready := s.pcc.drum = .idle ∧ s.rc.hatch = .locked ∧ s.pins.hatchShut = true
    (¬ ready ∨ s.pcc.queue = [] ∨ (∃ q ∈ s.pcc.queue, q.stage = .inService) → exec .carouselServe s = .next s) ∧
    (∀ before r after c, ready → (∀ q ∈ s.pcc.queue, q.stage = .waiting) → s.pcc.queue = before ++ r :: after →
      r.withdrawn = false → s.pcc.position = some c →
      (r.source = .intake ∧ (∀ q ∈ before, q.source ≠ .intake) ∨ before = [] ∧ ∀ q ∈ s.pcc.queue, q.source ≠ .intake) →
      (∀ dir n, shorterWay c r.target = some (dir, n) → exec .carouselServe s = .next
        { s with pcc := setOff { s.pcc with queue := before ++ { r with stage := .serving } :: after }
                          r.target dir n false }) ∧
      (c = r.target → r.source = .intake → exec .carouselServe s = .next
        { s with pcc := { s.pcc with queue := before ++ { r with stage := .inService } :: after }
                 intake := { s.intake with phase := .tip, tipTimer := some 4000 } }) ∧
      (c = r.target → r.source = .release → exec .carouselServe s = .next
        { s with pcc := { s.pcc with queue := after }
                 rc := { s.rc with
                   hatch := .unlocked, openPocket := some r.pocket, unopenedTimer := some 120000 } })) ∧
    (∀ m, s.pcc.drum = .settle m → exec .settleExpiry s = .next
      { s with pcc := { s.pcc with drum := .moving m ((m.steps + 1) * m.stepMs), lastDir := some m.dir } }) ∧
    ((∀ m, s.pcc.drum ≠ .settle m) → exec .settleExpiry s = .next s)

/-- Steps of the drum (R79, R82, R85, R90, R93): on the path the position moves by one, at the target the request being
served arrives; a step against the direction, in IDLE or in SETTLE, a search's 42nd step, the arrival timer and a hatch
that reads open while the drum turns are carousel faults. A forward step before a search begins is ignored (DEDUCED in
log 10), and every step ends what the mark's sensor reads (log 9). -/
def Obligations.StepsMoveTheDrum : Prop :=
  ∀ s : State, s.resetHeld = false →
    let u : State := { s with pins := { s.pins with refMark := false } }
    let at_ (k : Fin 21) (d : Dir) : Fin 21 :=
      match d with | .forward => Fin.ofNat 21 (k.val + 1) | .backward => Fin.ofNat 21 (k.val + 20)
    let fails (c : Instr) (x : State) : Prop := exec c s = .next (faulted x).afterDrumChange
    let stays (c : Instr) (x : State) : Prop := exec c s = .next x
    (∀ d, s.pcc.drum = .idle ∨ (∃ m, s.pcc.drum = .settle m) → fails (.encoderStep d) u) ∧
    (∀ m left k d, s.pcc.drum = .moving m left → s.pcc.position = some k →
      (d ≠ m.dir → fails (.encoderStep d) u) ∧
      (d = m.dir → at_ k d ≠ m.target →
        stays (.encoderStep d) { u with pcc := { s.pcc with position := some (at_ k d) } }) ∧
      (d = m.dir → at_ k d = m.target →
        let here (q : List PosRequest) : Carousel :=
          { s.pcc with drum := .idle, position := some m.target, queue := q }
        ((∀ q ∈ s.pcc.queue, q.stage ≠ .serving) →
          stays (.encoderStep d) (State.serve { u with pcc := here s.pcc.queue })) ∧
        (∀ before r after, s.pcc.queue = before ++ r :: after → r.stage = .serving →
          (∀ q ∈ before ++ after, q.stage ≠ .serving) →
          (r.source = .intake → stays (.encoderStep d)
            { u with pcc := here (before ++ { r with stage := .inService } :: after)
                     intake := { s.intake with phase := .tip, tipTimer := some 4000 } }) ∧
          (r.source = .release → r.withdrawn = false → stays (.encoderStep d)
            { u with pcc := here (before ++ after)
                     rc := { s.rc with
                       hatch := .unlocked, openPocket := some r.pocket, unopenedTimer := some 120000 } }) ∧
          (r.source = .release → r.withdrawn = true → stays (.encoderStep d)
            (State.serve { u with pcc := here (before ++ after) }))))) ∧
    (∀ x, s.pcc.drum = .homing (some x) →
      (x.steps < 41 → stays (.encoderStep .forward)
        { u with pcc := { s.pcc with drum := .homing (some { x with steps := x.steps + 1 }) } }) ∧
      (41 ≤ x.steps → fails (.encoderStep .forward) u) ∧ fails (.encoderStep .backward) u) ∧
    (s.pcc.drum = .homing none → stays (.encoderStep .forward) u ∧ fails (.encoderStep .backward) u) ∧
    (∀ d, s.pcc.drum = .fault → stays (.encoderStep d) u) ∧
    (∀ m left, s.pcc.drum = .moving m left → fails .arrivalTimerExpiry s) ∧
    ((∀ m left, s.pcc.drum ≠ .moving m left) → stays .arrivalTimerExpiry s) ∧
    (s.rc.hatch = .locked →
      let forced : State := { s with pins := { s.pins with hatchShut := false } }
      ((∃ m, s.pcc.drum = .settle m) ∨ (∃ m left, s.pcc.drum = .moving m left) ∨ (∃ x, s.pcc.drum = .homing (some x)) →
        fails (.hatchShutSensor false) forced) ∧
      (s.pcc.drum = .idle ∨ s.pcc.drum = .homing none ∨ s.pcc.drum = .fault → stays (.hatchShutSensor false) forced))

/-- Homing (R92, R93, R117, R96): the mark ends a search at position 0 with the last direction forward; the homing timer is a
fault; HOME begins a search in FAULT, for a supervisor, with the interlock SECURE. Then the chute is tested, or, at the
first end after a restart, a drop found in the drawer is taken up (log 14). That REFERENCE_MARK leaves the sensor reading
the mark until the drum steps is the model's choice (log 9). -/
def Obligations.HomingEnds : Prop :=
  (∀ s : State, s.resetHeld = false →
    let marked : State := { s with pins := { s.pins with refMark := true } }
    let found (x : State) : State :=
      { x with pcc := { x.pcc with drum := .idle, position := some 0, lastDir := some .forward } }
    (∀ x, s.pcc.drum = .homing (some x) →
      exec .referenceMark s = .next (found marked).afterDrumChange.serve ∧
      exec .homingTimerExpiry s = .next (faulted s).afterDrumChange) ∧
    ((∀ x, s.pcc.drum ≠ .homing (some x)) →
      exec .referenceMark s = .next marked ∧ exec .homingTimerExpiry s = .next s) ∧
    (∀ id, branchIdle s →
      let secure := s.rc.hatch = .locked ∧ s.pins.hatchShut = true
      let answers (t : State) (w : OutcomeWord) : Prop := exec (.home id) s = .next (branchReply t .home w [])
      (s.pcc.drum ≠ .fault → answers s .badState) ∧
      (s.pcc.drum = .fault → notRostered s id ∨ hasRole s id .teller → answers s .deny) ∧
      (s.pcc.drum = .fault → hasRole s id .supervisor → ¬ secure → answers s .busy) ∧
      (s.pcc.drum = .fault → hasRole s id .supervisor → secure → s.pins.refMark = false →
        answers { s with pcc := { s.pcc with drum := .homing (some
          { steps := 0, stepMs := s.pcc.stepInterval, timerMs := 43 * s.pcc.stepInterval }) } } .ok) ∧
      (s.pcc.drum = .fault → hasRole s id .supervisor → secure → s.pins.refMark = true →
        answers (found s).afterDrumChange.serve .ok))) ∧
  (∀ s : State,
    let t : State := { s with intake := { s.intake with takeUp := false } }
    let asked : State :=
      if s.pcc.pockets[0].used + s.pcc.heldUnits 0 + 4 ≤ s.pcc.pockets[0].capacity then
        { t with pcc := { s.pcc with hold := some { pocket := 0, units := 4 } } } else t
    (s.intake.takeUp = false → s.afterDrumChange = s.retest) ∧
    (s.intake.takeUp = true → s.pins.drawerShut = false → s.afterDrumChange = { asked with
      intake := { t.intake with phase := .loading, readings := {}, drawerTimer := some 120000 } }) ∧
    (s.intake.takeUp = true → s.pins.drawerShut = true → s.pins.bagPresent = true → s.afterDrumChange = { asked with
      intake := { t.intake with
        phase := .identify, readings := { size := some (sizeClass s.pins.beams) }, drawerTimer := none
        tagWindow := some 2000, reader := { receive := none, holding := none } } }) ∧
    (s.intake.takeUp = true → s.pins.drawerShut = true → s.pins.bagPresent = false → s.afterDrumChange = t.testChute))

/-! ## Start-up and the invariants -/

/-- RESTART with the store lost (R27, R178, R183): the register is empty with its counter at 1 by day, the loss is pending,
the pockets keep only their capacities, and STORE_LOST stands set. RESTART with the store valid (R26, R61, R116, R183): the
register is kept, the INTAKE record is marked INTERRUPTED and JAMMED, grace and handover timers start at their full
intervals, every PENDING record has its job again, STORE_LOST is raised again while the loss-pending mark is set, and what is
kept nowhere takes its values after restart: the sequencer is in JAMMED with an INTAKE record, else in CLOSED by day and SHUT
by night, with no CHUTE_SHUT. That the second part of start-up is in the same event is DEDUCED in log 8. -/
def Obligations.RestartKeepsOrEmptiesTheRegister : Prop :=
  (∀ (straps : Straps) (pins : Levels) (lost answers : Bool) (n : Nat) (s : State),
     lost = true ∨ s.cr.storeValid = false →
     ∃ t, exec (.restart straps pins lost answers n) s = .next t ∧
       t.cr.records = [] ∧ t.cr.tagIndex = [] ∧ t.cr.receiptCounter = 1 ∧ (∀ p : Fin 21, t.cr.lists[p] = []) ∧
       t.cr.night = .day ∧ t.cr.totals = { bags := 0, exceptions := 0, declared := 0, mass := 0 } ∧
       t.cr.lossPending = true ∧ t.cr.storeValid = true ∧ t.rc.handoverTimers = [] ∧ t.wau.queue = [] ∧
       t.wau.working = none ∧ t.ls.flags[StatusFlag.storeLost.place] = { set := true, count := 1 } ∧
       t.ss.straps = straps ∧ t.pins = pins ∧ t.resetHeld = false ∧
       ∀ p : Fin 21, t.pcc.pockets[p].used = 0 ∧ t.pcc.pockets[p].bags = 0 ∧ t.pcc.pockets[p].declared = 0 ∧
         t.pcc.pockets[p].mass = 0) ∧
  (∀ (straps : Straps) (pins : Levels) (answers : Bool) (n : Nat) (s : State), receiptsOrdered s →
     s.cr.storeValid = true →
     (∀ r ∈ s.cr.records, r.verdict = some .pending → r.state ≠ .advised ∧ r.state ≠ .missing) →
     ∃ t, exec (.restart straps pins false answers n) s = .next t ∧
       t.cr = { s.cr with
         graceInterval := t.cr.graceInterval
         records := s.cr.records.map fun r => match r.state with
           | .intake => { r with interrupted := true, jammed := true }
           | .grace => { r with grace := some t.cr.graceInterval }
           | _ => r } ∧
       t.rc.handoverTimers =
         (s.cr.records.filter fun r => r.state = .staged).map (fun r => (r.receipt, t.rc.handoverInterval)) ∧
       t.wau.queue =
         (s.cr.records.filter fun r => r.verdict = some .pending).map (fun r => { receipt := r.receipt, tag := r.tag }) ∧
       (t.wau.working.isSome = true ↔ t.wau.queue ≠ []) ∧
       ((∃ r ∈ s.cr.records, r.state = .intake) → t.intake.phase = .jammed ∧
         t.ls.flags[StatusFlag.jam.place] = { set := true, count := 1 }) ∧
       t.rc.session = .closed ∧ t.rc.wndw = false ∧ t.rc.openPocket = none ∧ t.rc.hatch = .locked ∧
       t.ls.clock = none ∧ t.ls.branch = {} ∧ t.ls.panel = {} ∧ t.ss.saving = none ∧ t.pcc.queue = [] ∧
       (s.cr.lossPending = true → t.ls.flags[StatusFlag.storeLost.place] = { set := true, count := 1 }) ∧
       (pins.hatchShut = false ∨ pins.refMark = false →
         t.pcc.position = none ∧ (∃ x, t.pcc.drum = .homing x) ∧ t.pcc.hold = none ∧
         t.ls.flags[StatusFlag.chuteShut.place] = { set := false, count := 0 } ∧
         ((∀ r ∈ s.cr.records, r.state ≠ .intake) →
           t.intake = { phase := if s.cr.night = .day then .closed else .shut, takeUp := true }) ∧
         ((∃ r ∈ s.cr.records, r.state = .intake) → t.intake = { phase := .jammed, takeUp := false })) ∧
       ∀ p : Fin 21, t.pcc.pockets[p].used = s.pcc.pockets[p].used ∧ t.pcc.pockets[p].bags = s.pcc.pockets[p].bags ∧
         t.pcc.pockets[p].declared = s.pcc.pockets[p].declared ∧ t.pcc.pockets[p].mass = s.pcc.pockets[p].mass)

/-- A restart loads the settings (R177, R178, R179), by the first row of R178 that holds. With AUTOLOAD_OFF fitted it takes
DEFAULTS, configured; with the header word FFFF hex it takes BLANK, not configured; where the EEPROM does not answer, or the
format, the length, the CRC or the general-routing flag fails its check, it takes BAD, not configured, and raises
SETTINGS_FAULT. All three stand on the defaults. With an image of legal settings it takes LOADED, and every setting is as it
was saved. No row but BAD raises SETTINGS_FAULT. The image's layout is DEDUCED in log 11, and the bytes of its unused places
are free (log 12). -/
def Obligations.RestartLoadsTheSettings : Prop :=
  ∀ (straps : Straps) (pins : Levels) (lost answers : Bool) (n : Nat) (s : State),
    let loads (x : SettingValues) (outcome : LoadOutcome) (configured fault : Bool) : Prop :=
      ∃ t, exec (.restart straps pins lost answers n) s = .next t ∧ t.settings = x ∧ t.ss.outcome = outcome ∧
        t.ss.notConfigured = !configured ∧ t.ls.flags[StatusFlag.settingsFault.place].set = fault
    let at_ (a : Nat) : Byte := Memory.read s.ss.eeprom a
    (straps.autoloadOff = true → loads defaultSettings .defaults true false) ∧
    (straps.autoloadOff = false → answers = false → loads defaultSettings .bad false true) ∧
    (straps.autoloadOff = false → answers = true → s.ss.saving = none →
      (at_ 0 = 0xFF#8 ∧ at_ 1 = 0xFF#8 → loads defaultSettings .blank false false) ∧
      (¬ (at_ 0 = 0xFF#8 ∧ at_ 1 = 0xFF#8) →
        at_ 0 ≠ 1#8 ∨ [at_ 1, at_ 2] ≠ be 2 435 ∨
          [at_ 433, at_ 434] ≠ be 2 (crc16 ((List.range 433).map at_)).toNat ∨ 1 < (at_ 155).toNat →
        loads defaultSettings .bad false true) ∧
      (∀ (x : SettingValues) (save : Nat), settingsLegal x → (∀ a : Nat, a < 435 → at_ a = (x.image save).getD a 0) →
        loads x .loaded true false))

/-- Every step keeps the register in order: at most 384 records in rising receipt order, each receipt and the counter in 1
to 65,535, each record's location the one of its state, and none PENDING that is ADVISED or MISSING (R2, R3, R4). -/
def Obligations.StepKeepsTheRegister : Prop := ∀ s t : State, registerRight s → step s = .next t → registerRight t

/-- Every step keeps the drop right: exactly one record in INTAKE from WEIGH to TIP and in JAMMED, none otherwise, with its
size class, its chosen pocket and its request where they belong (R4, R94, R100, R106, R107, R110, R117). -/
def Obligations.StepKeepsTheDrop : Prop :=
  ∀ s t : State, registerRight s → dropRight s → step s = .next t → dropRight t

/-- Every step keeps custody in one way everywhere: the marks and grace timers, one entry of the tag index for each claiming
record, each located record once in its pocket's list, the totals of each pocket those of its records, and one handover timer
for each STAGED record (R1, R9, R14, R16, R71, R118, R153). -/
def Obligations.StepKeepsCustody : Prop :=
  ∀ s t : State, registerRight s → custodyRight s → step s = .next t → custodyRight t

/-- Every step keeps the hold the one of the sequencer's state, no pocket above 24 units with what is held there, at most 6
jobs with one for every PENDING record and none waited for while a place is free, and at most one intake request and three
release requests (R52, R53, R54, R71, R74, R83, R94, R106). -/
def Obligations.StepKeepsTheQueues : Prop :=
  ∀ s t : State, registerRight s → dropRight s → queuesRight s → step s = .next t → queuesRight t

/-- Every step keeps every setting in the range its write request keeps it in, the copy of a save a whole image, and the
EEPROM in its canonical form (R32, R46, R50, R75, R136, R152, R177, R180). -/
def Obligations.StepKeepsTheSettings : Prop := ∀ s t : State, settingsRight s → step s = .next t → settingsRight t

/-- A bag in custody leaves the register only with the store, or by a CNFM that names it while it is STAGED or OVERDUE, given
as a command or as a good frame on the branch link (R12, R27, R155, R162). -/
def Obligations.CustodyEndsAtConfirmation : Prop :=
  ∀ (c : Instr) (s t : State) (r : Record), receiptsOrdered s → exec c s = .next t → r ∈ s.cr.records →
    r.state ≠ .advised → r.state ≠ .missing → (∀ x ∈ t.cr.records, x.receipt ≠ r.receipt) →
    (∃ (n : BitVec 16) (counted : BitVec 40) (ids : List (BitVec 24)), n.toNat = r.receipt ∧
      (r.state = .staged ∨ r.state = .overdue) ∧
      (c = .cnfm n counted ids ∨
        ∃ f : Frame, decodeRequest .branch f.name f.body = .request (.cnfm n counted ids) ∧
          s.address .branch = some f.address ∧ f.crc = crc16 (frameBytes f.address f.name f.body) ∧
          (c = .frameRejected .branch f ∨
            ∃ taken b, c = .lineByteReceived .branch b ∧ s.ls.branch.receiver = .frame taken ∧
              frameOf (taken ++ [b]) = f))) ∨
    (∃ straps pins lost answers n, c = .restart straps pins lost answers n ∧ (lost = true ∨ s.cr.storeValid = false))

/-- Every step keeps the position known exactly in IDLE, SETTLE and MOVING (R81); keeps the hatch right: the unopened
timer runs exactly in UNLOCKED, and a pocket is open only while the hatch is not locked (R144, R145, R146); keeps the
interlock right: the carousel settles, turns and searches only while the hatch is shut and locked, and is IDLE while an intake
request is in service or the hatch is UNLOCKED (R81, R84, R85, R87); and keeps the attention output asserted exactly while a set flag is enabled and RESET_N is not held (R174, R183). -/
def Obligations.StepKeepsThePositionTheHatchAndTheAttention : Prop :=
  (∀ s t : State, positionRight s → step s = .next t → positionRight t) ∧
  (∀ s t : State, hatchRight s → step s = .next t → hatchRight t) ∧
  (∀ s t : State, interlockRight s → step s = .next t → interlockRight t) ∧
  (∀ s t : State, attentionRight s → step s = .next t → attentionRight t)

/-- The invariants hold right after reset. -/
def Obligations.ResetMeetsTheInvariants : Prop :=
  registerRight State.reset ∧ dropRight State.reset ∧ custodyRight State.reset ∧ queuesRight State.reset ∧
  settingsRight State.reset ∧ positionRight State.reset ∧ hatchRight State.reset ∧ interlockRight State.reset ∧
  attentionRight State.reset
end

