-- ==== Sys2Proof/Laws/State.lean ====
section
/-! SUPPORT. What each update of the state leaves as it was: one lemma per block and per field of a written block, for the
plain updates. -/

namespace Sys2Proof.Machine

/-! ### What is written -/
@[simp] theorem State.setPins_pins (s : State) (x : Levels) : (s.setPins x).pins = x := rfl
@[simp] theorem State.setIntake_intake (s : State) (x : Intake) : (s.setIntake x).intake = x := rfl
@[simp] theorem State.setPcc_pcc (s : State) (x : Carousel) : (s.setPcc x).pcc = x := rfl
@[simp] theorem State.setRc_rc (s : State) (x : Release) : (s.setRc x).rc = x := rfl
@[simp] theorem State.setRecords_records (s : State) (x : List Record) : (s.setRecords x).cr.records = x := rfl
@[simp] theorem State.update_records (s : State) (n : Nat) (f : Record → Record) :
    (s.update n f).cr.records = updateReceipt s.cr.records n f := rfl
@[simp] theorem State.withFlags_flags (s : State) (x : Vector FlagCell 16) : (s.withFlags x).ls.flags = x := rfl
@[simp] theorem State.withFlags_attention (s : State) (x : Vector FlagCell 16) :
    (s.withFlags x).ls.attention = attentionOf x s.ls.enables := rfl
@[simp] theorem State.setHold_hold (s : State) (h : Option Hold) : (s.setHold h).pcc.hold = h := rfl
@[simp] theorem State.setQueue_queue (s : State) (q : List PosRequest) : (s.setQueue q).pcc.queue = q := rfl
@[simp] theorem State.setSession_session (s : State) (x : Session) : (s.setSession x).rc.session = x := rfl
@[simp] theorem State.setClock_clock (s : State) (c : Option Nat) : (s.setClock c).ls.clock = c := rfl
@[simp] theorem State.light_lamp (s : State) (l : Lamp) : (s.light l).rc.lamp = some l := rfl
@[simp] theorem State.setPocket_pockets (s : State) (p : Fin 21) (x : Pocket) :
    (s.setPocket p x).pcc.pockets = s.pcc.pockets.set p x := rfl
@[simp] theorem State.setList_lists (s : State) (p : Fin 21) (x : List Nat) :
    (s.setList p x).cr.lists = s.cr.lists.set p x := rfl
@[simp] theorem State.setLine_line (s : State) (l : Line) (x : LineState) : (s.setLine l x).line l = x := by
  cases l <;> rfl

/-! ### setLine -/
@[simp] theorem State.setLine_cr (s : State) (l : Line) (x : LineState) : (s.setLine l x).cr = s.cr := by cases l <;> rfl
@[simp] theorem State.setLine_trt (s : State) (l : Line) (x : LineState) : (s.setLine l x).trt = s.trt := by cases l <;> rfl
@[simp] theorem State.setLine_wau (s : State) (l : Line) (x : LineState) : (s.setLine l x).wau = s.wau := by cases l <;> rfl
@[simp] theorem State.setLine_pcc (s : State) (l : Line) (x : LineState) : (s.setLine l x).pcc = s.pcc := by cases l <;> rfl
@[simp] theorem State.setLine_intake (s : State) (l : Line) (x : LineState) : (s.setLine l x).intake = s.intake := by cases l <;> rfl
@[simp] theorem State.setLine_rc (s : State) (l : Line) (x : LineState) : (s.setLine l x).rc = s.rc := by cases l <;> rfl
@[simp] theorem State.setLine_ss (s : State) (l : Line) (x : LineState) : (s.setLine l x).ss = s.ss := by cases l <;> rfl
@[simp] theorem State.setLine_pins (s : State) (l : Line) (x : LineState) : (s.setLine l x).pins = s.pins := by cases l <;> rfl
@[simp] theorem State.setLine_resetHeld (s : State) (l : Line) (x : LineState) : (s.setLine l x).resetHeld = s.resetHeld := by cases l <;> rfl
@[simp] theorem State.setLine_pending (s : State) (l : Line) (x : LineState) : (s.setLine l x).pending = s.pending := by cases l <;> rfl
@[simp] theorem State.setLine_ls_flags (s : State) (l : Line) (x : LineState) : (s.setLine l x).ls.flags = s.ls.flags := by cases l <;> rfl
@[simp] theorem State.setLine_ls_enables (s : State) (l : Line) (x : LineState) : (s.setLine l x).ls.enables = s.ls.enables := by cases l <;> rfl
@[simp] theorem State.setLine_ls_attention (s : State) (l : Line) (x : LineState) : (s.setLine l x).ls.attention = s.ls.attention := by cases l <;> rfl
@[simp] theorem State.setLine_ls_clock (s : State) (l : Line) (x : LineState) : (s.setLine l x).ls.clock = s.ls.clock := by cases l <;> rfl

/-! ### answer -/
@[simp] theorem State.answer_cr (s : State) (l : Line) (name : BitVec 32) (a : Answer) : (s.answer l name a).cr = s.cr := by cases l <;> rfl
@[simp] theorem State.answer_trt (s : State) (l : Line) (name : BitVec 32) (a : Answer) : (s.answer l name a).trt = s.trt := by cases l <;> rfl
@[simp] theorem State.answer_wau (s : State) (l : Line) (name : BitVec 32) (a : Answer) : (s.answer l name a).wau = s.wau := by cases l <;> rfl
@[simp] theorem State.answer_pcc (s : State) (l : Line) (name : BitVec 32) (a : Answer) : (s.answer l name a).pcc = s.pcc := by cases l <;> rfl
@[simp] theorem State.answer_intake (s : State) (l : Line) (name : BitVec 32) (a : Answer) : (s.answer l name a).intake = s.intake := by cases l <;> rfl
@[simp] theorem State.answer_rc (s : State) (l : Line) (name : BitVec 32) (a : Answer) : (s.answer l name a).rc = s.rc := by cases l <;> rfl
@[simp] theorem State.answer_ss (s : State) (l : Line) (name : BitVec 32) (a : Answer) : (s.answer l name a).ss = s.ss := by cases l <;> rfl
@[simp] theorem State.answer_pins (s : State) (l : Line) (name : BitVec 32) (a : Answer) : (s.answer l name a).pins = s.pins := by cases l <;> rfl
@[simp] theorem State.answer_resetHeld (s : State) (l : Line) (name : BitVec 32) (a : Answer) : (s.answer l name a).resetHeld = s.resetHeld := by cases l <;> rfl
@[simp] theorem State.answer_pending (s : State) (l : Line) (name : BitVec 32) (a : Answer) : (s.answer l name a).pending = s.pending := by cases l <;> rfl
@[simp] theorem State.answer_ls_flags (s : State) (l : Line) (name : BitVec 32) (a : Answer) : (s.answer l name a).ls.flags = s.ls.flags := by cases l <;> rfl
@[simp] theorem State.answer_ls_enables (s : State) (l : Line) (name : BitVec 32) (a : Answer) : (s.answer l name a).ls.enables = s.ls.enables := by cases l <;> rfl
@[simp] theorem State.answer_ls_attention (s : State) (l : Line) (name : BitVec 32) (a : Answer) : (s.answer l name a).ls.attention = s.ls.attention := by cases l <;> rfl
@[simp] theorem State.answer_ls_clock (s : State) (l : Line) (name : BitVec 32) (a : Answer) : (s.answer l name a).ls.clock = s.ls.clock := by cases l <;> rfl

/-! ### setReceiver -/
@[simp] theorem State.setReceiver_cr (s : State) (l : Line) (x : Receiver) : (s.setReceiver l x).cr = s.cr := by cases l <;> rfl
@[simp] theorem State.setReceiver_trt (s : State) (l : Line) (x : Receiver) : (s.setReceiver l x).trt = s.trt := by cases l <;> rfl
@[simp] theorem State.setReceiver_wau (s : State) (l : Line) (x : Receiver) : (s.setReceiver l x).wau = s.wau := by cases l <;> rfl
@[simp] theorem State.setReceiver_pcc (s : State) (l : Line) (x : Receiver) : (s.setReceiver l x).pcc = s.pcc := by cases l <;> rfl
@[simp] theorem State.setReceiver_intake (s : State) (l : Line) (x : Receiver) : (s.setReceiver l x).intake = s.intake := by cases l <;> rfl
@[simp] theorem State.setReceiver_rc (s : State) (l : Line) (x : Receiver) : (s.setReceiver l x).rc = s.rc := by cases l <;> rfl
@[simp] theorem State.setReceiver_ss (s : State) (l : Line) (x : Receiver) : (s.setReceiver l x).ss = s.ss := by cases l <;> rfl
@[simp] theorem State.setReceiver_pins (s : State) (l : Line) (x : Receiver) : (s.setReceiver l x).pins = s.pins := by cases l <;> rfl
@[simp] theorem State.setReceiver_resetHeld (s : State) (l : Line) (x : Receiver) : (s.setReceiver l x).resetHeld = s.resetHeld := by cases l <;> rfl
@[simp] theorem State.setReceiver_pending (s : State) (l : Line) (x : Receiver) : (s.setReceiver l x).pending = s.pending := by cases l <;> rfl
@[simp] theorem State.setReceiver_ls_flags (s : State) (l : Line) (x : Receiver) : (s.setReceiver l x).ls.flags = s.ls.flags := by cases l <;> rfl
@[simp] theorem State.setReceiver_ls_enables (s : State) (l : Line) (x : Receiver) : (s.setReceiver l x).ls.enables = s.ls.enables := by cases l <;> rfl
@[simp] theorem State.setReceiver_ls_attention (s : State) (l : Line) (x : Receiver) : (s.setReceiver l x).ls.attention = s.ls.attention := by cases l <;> rfl
@[simp] theorem State.setReceiver_ls_clock (s : State) (l : Line) (x : Receiver) : (s.setReceiver l x).ls.clock = s.ls.clock := by cases l <;> rfl

/-! ### setPins -/
@[simp] theorem State.setPins_cr (s : State) (x : Levels) : (s.setPins x).cr = s.cr := rfl
@[simp] theorem State.setPins_trt (s : State) (x : Levels) : (s.setPins x).trt = s.trt := rfl
@[simp] theorem State.setPins_wau (s : State) (x : Levels) : (s.setPins x).wau = s.wau := rfl
@[simp] theorem State.setPins_pcc (s : State) (x : Levels) : (s.setPins x).pcc = s.pcc := rfl
@[simp] theorem State.setPins_intake (s : State) (x : Levels) : (s.setPins x).intake = s.intake := rfl
@[simp] theorem State.setPins_rc (s : State) (x : Levels) : (s.setPins x).rc = s.rc := rfl
@[simp] theorem State.setPins_ls (s : State) (x : Levels) : (s.setPins x).ls = s.ls := rfl
@[simp] theorem State.setPins_ss (s : State) (x : Levels) : (s.setPins x).ss = s.ss := rfl
@[simp] theorem State.setPins_resetHeld (s : State) (x : Levels) : (s.setPins x).resetHeld = s.resetHeld := rfl
@[simp] theorem State.setPins_pending (s : State) (x : Levels) : (s.setPins x).pending = s.pending := rfl

/-! ### withFlags -/
@[simp] theorem State.withFlags_cr (s : State) (x : Vector FlagCell 16) : (s.withFlags x).cr = s.cr := rfl
@[simp] theorem State.withFlags_trt (s : State) (x : Vector FlagCell 16) : (s.withFlags x).trt = s.trt := rfl
@[simp] theorem State.withFlags_wau (s : State) (x : Vector FlagCell 16) : (s.withFlags x).wau = s.wau := rfl
@[simp] theorem State.withFlags_pcc (s : State) (x : Vector FlagCell 16) : (s.withFlags x).pcc = s.pcc := rfl
@[simp] theorem State.withFlags_intake (s : State) (x : Vector FlagCell 16) : (s.withFlags x).intake = s.intake := rfl
@[simp] theorem State.withFlags_rc (s : State) (x : Vector FlagCell 16) : (s.withFlags x).rc = s.rc := rfl
@[simp] theorem State.withFlags_ss (s : State) (x : Vector FlagCell 16) : (s.withFlags x).ss = s.ss := rfl
@[simp] theorem State.withFlags_pins (s : State) (x : Vector FlagCell 16) : (s.withFlags x).pins = s.pins := rfl
@[simp] theorem State.withFlags_resetHeld (s : State) (x : Vector FlagCell 16) : (s.withFlags x).resetHeld = s.resetHeld := rfl
@[simp] theorem State.withFlags_pending (s : State) (x : Vector FlagCell 16) : (s.withFlags x).pending = s.pending := rfl
@[simp] theorem State.withFlags_ls_branch (s : State) (x : Vector FlagCell 16) : (s.withFlags x).ls.branch = s.ls.branch := rfl
@[simp] theorem State.withFlags_ls_panel (s : State) (x : Vector FlagCell 16) : (s.withFlags x).ls.panel = s.ls.panel := rfl
@[simp] theorem State.withFlags_ls_enables (s : State) (x : Vector FlagCell 16) : (s.withFlags x).ls.enables = s.ls.enables := rfl
@[simp] theorem State.withFlags_ls_clock (s : State) (x : Vector FlagCell 16) : (s.withFlags x).ls.clock = s.ls.clock := rfl

/-! ### raise -/
@[simp] theorem State.raise_cr (s : State) (f : StatusFlag) : (s.raise f).cr = s.cr := rfl
@[simp] theorem State.raise_trt (s : State) (f : StatusFlag) : (s.raise f).trt = s.trt := rfl
@[simp] theorem State.raise_wau (s : State) (f : StatusFlag) : (s.raise f).wau = s.wau := rfl
@[simp] theorem State.raise_pcc (s : State) (f : StatusFlag) : (s.raise f).pcc = s.pcc := rfl
@[simp] theorem State.raise_intake (s : State) (f : StatusFlag) : (s.raise f).intake = s.intake := rfl
@[simp] theorem State.raise_rc (s : State) (f : StatusFlag) : (s.raise f).rc = s.rc := rfl
@[simp] theorem State.raise_ss (s : State) (f : StatusFlag) : (s.raise f).ss = s.ss := rfl
@[simp] theorem State.raise_pins (s : State) (f : StatusFlag) : (s.raise f).pins = s.pins := rfl
@[simp] theorem State.raise_resetHeld (s : State) (f : StatusFlag) : (s.raise f).resetHeld = s.resetHeld := rfl
@[simp] theorem State.raise_pending (s : State) (f : StatusFlag) : (s.raise f).pending = s.pending := rfl
@[simp] theorem State.raise_ls_branch (s : State) (f : StatusFlag) : (s.raise f).ls.branch = s.ls.branch := rfl
@[simp] theorem State.raise_ls_panel (s : State) (f : StatusFlag) : (s.raise f).ls.panel = s.ls.panel := rfl
@[simp] theorem State.raise_ls_enables (s : State) (f : StatusFlag) : (s.raise f).ls.enables = s.ls.enables := rfl
@[simp] theorem State.raise_ls_clock (s : State) (f : StatusFlag) : (s.raise f).ls.clock = s.ls.clock := rfl

/-! ### raiseWhen -/
@[simp] theorem State.raiseWhen_cr (s : State) (c : Bool) (f : StatusFlag) : (s.raiseWhen c f).cr = s.cr := by cases c <;> rfl
@[simp] theorem State.raiseWhen_trt (s : State) (c : Bool) (f : StatusFlag) : (s.raiseWhen c f).trt = s.trt := by cases c <;> rfl
@[simp] theorem State.raiseWhen_wau (s : State) (c : Bool) (f : StatusFlag) : (s.raiseWhen c f).wau = s.wau := by cases c <;> rfl
@[simp] theorem State.raiseWhen_pcc (s : State) (c : Bool) (f : StatusFlag) : (s.raiseWhen c f).pcc = s.pcc := by cases c <;> rfl
@[simp] theorem State.raiseWhen_intake (s : State) (c : Bool) (f : StatusFlag) : (s.raiseWhen c f).intake = s.intake := by cases c <;> rfl
@[simp] theorem State.raiseWhen_rc (s : State) (c : Bool) (f : StatusFlag) : (s.raiseWhen c f).rc = s.rc := by cases c <;> rfl
@[simp] theorem State.raiseWhen_ss (s : State) (c : Bool) (f : StatusFlag) : (s.raiseWhen c f).ss = s.ss := by cases c <;> rfl
@[simp] theorem State.raiseWhen_pins (s : State) (c : Bool) (f : StatusFlag) : (s.raiseWhen c f).pins = s.pins := by cases c <;> rfl
@[simp] theorem State.raiseWhen_resetHeld (s : State) (c : Bool) (f : StatusFlag) : (s.raiseWhen c f).resetHeld = s.resetHeld := by cases c <;> rfl
@[simp] theorem State.raiseWhen_pending (s : State) (c : Bool) (f : StatusFlag) : (s.raiseWhen c f).pending = s.pending := by cases c <;> rfl
@[simp] theorem State.raiseWhen_ls_branch (s : State) (c : Bool) (f : StatusFlag) : (s.raiseWhen c f).ls.branch = s.ls.branch := by cases c <;> rfl
@[simp] theorem State.raiseWhen_ls_panel (s : State) (c : Bool) (f : StatusFlag) : (s.raiseWhen c f).ls.panel = s.ls.panel := by cases c <;> rfl
@[simp] theorem State.raiseWhen_ls_enables (s : State) (c : Bool) (f : StatusFlag) : (s.raiseWhen c f).ls.enables = s.ls.enables := by cases c <;> rfl
@[simp] theorem State.raiseWhen_ls_clock (s : State) (c : Bool) (f : StatusFlag) : (s.raiseWhen c f).ls.clock = s.ls.clock := by cases c <;> rfl

/-! ### setRecords -/
@[simp] theorem State.setRecords_trt (s : State) (x : List Record) : (s.setRecords x).trt = s.trt := rfl
@[simp] theorem State.setRecords_wau (s : State) (x : List Record) : (s.setRecords x).wau = s.wau := rfl
@[simp] theorem State.setRecords_pcc (s : State) (x : List Record) : (s.setRecords x).pcc = s.pcc := rfl
@[simp] theorem State.setRecords_intake (s : State) (x : List Record) : (s.setRecords x).intake = s.intake := rfl
@[simp] theorem State.setRecords_rc (s : State) (x : List Record) : (s.setRecords x).rc = s.rc := rfl
@[simp] theorem State.setRecords_ls (s : State) (x : List Record) : (s.setRecords x).ls = s.ls := rfl
@[simp] theorem State.setRecords_ss (s : State) (x : List Record) : (s.setRecords x).ss = s.ss := rfl
@[simp] theorem State.setRecords_pins (s : State) (x : List Record) : (s.setRecords x).pins = s.pins := rfl
@[simp] theorem State.setRecords_resetHeld (s : State) (x : List Record) : (s.setRecords x).resetHeld = s.resetHeld := rfl
@[simp] theorem State.setRecords_pending (s : State) (x : List Record) : (s.setRecords x).pending = s.pending := rfl
@[simp] theorem State.setRecords_cr_tagIndex (s : State) (x : List Record) : (s.setRecords x).cr.tagIndex = s.cr.tagIndex := rfl
@[simp] theorem State.setRecords_cr_receiptCounter (s : State) (x : List Record) : (s.setRecords x).cr.receiptCounter = s.cr.receiptCounter := rfl
@[simp] theorem State.setRecords_cr_lists (s : State) (x : List Record) : (s.setRecords x).cr.lists = s.cr.lists := rfl
@[simp] theorem State.setRecords_cr_night (s : State) (x : List Record) : (s.setRecords x).cr.night = s.cr.night := rfl
@[simp] theorem State.setRecords_cr_totals (s : State) (x : List Record) : (s.setRecords x).cr.totals = s.cr.totals := rfl
@[simp] theorem State.setRecords_cr_lossPending (s : State) (x : List Record) : (s.setRecords x).cr.lossPending = s.cr.lossPending := rfl
@[simp] theorem State.setRecords_cr_storeValid (s : State) (x : List Record) : (s.setRecords x).cr.storeValid = s.cr.storeValid := rfl
@[simp] theorem State.setRecords_cr_graceInterval (s : State) (x : List Record) : (s.setRecords x).cr.graceInterval = s.cr.graceInterval := rfl

/-! ### update -/
@[simp] theorem State.update_trt (s : State) (n : Nat) (f : Record → Record) : (s.update n f).trt = s.trt := rfl
@[simp] theorem State.update_wau (s : State) (n : Nat) (f : Record → Record) : (s.update n f).wau = s.wau := rfl
@[simp] theorem State.update_pcc (s : State) (n : Nat) (f : Record → Record) : (s.update n f).pcc = s.pcc := rfl
@[simp] theorem State.update_intake (s : State) (n : Nat) (f : Record → Record) : (s.update n f).intake = s.intake := rfl
@[simp] theorem State.update_rc (s : State) (n : Nat) (f : Record → Record) : (s.update n f).rc = s.rc := rfl
@[simp] theorem State.update_ls (s : State) (n : Nat) (f : Record → Record) : (s.update n f).ls = s.ls := rfl
@[simp] theorem State.update_ss (s : State) (n : Nat) (f : Record → Record) : (s.update n f).ss = s.ss := rfl
@[simp] theorem State.update_pins (s : State) (n : Nat) (f : Record → Record) : (s.update n f).pins = s.pins := rfl
@[simp] theorem State.update_resetHeld (s : State) (n : Nat) (f : Record → Record) : (s.update n f).resetHeld = s.resetHeld := rfl
@[simp] theorem State.update_pending (s : State) (n : Nat) (f : Record → Record) : (s.update n f).pending = s.pending := rfl
@[simp] theorem State.update_cr_tagIndex (s : State) (n : Nat) (f : Record → Record) : (s.update n f).cr.tagIndex = s.cr.tagIndex := rfl
@[simp] theorem State.update_cr_receiptCounter (s : State) (n : Nat) (f : Record → Record) : (s.update n f).cr.receiptCounter = s.cr.receiptCounter := rfl
@[simp] theorem State.update_cr_lists (s : State) (n : Nat) (f : Record → Record) : (s.update n f).cr.lists = s.cr.lists := rfl
@[simp] theorem State.update_cr_night (s : State) (n : Nat) (f : Record → Record) : (s.update n f).cr.night = s.cr.night := rfl
@[simp] theorem State.update_cr_totals (s : State) (n : Nat) (f : Record → Record) : (s.update n f).cr.totals = s.cr.totals := rfl
@[simp] theorem State.update_cr_lossPending (s : State) (n : Nat) (f : Record → Record) : (s.update n f).cr.lossPending = s.cr.lossPending := rfl
@[simp] theorem State.update_cr_storeValid (s : State) (n : Nat) (f : Record → Record) : (s.update n f).cr.storeValid = s.cr.storeValid := rfl
@[simp] theorem State.update_cr_graceInterval (s : State) (n : Nat) (f : Record → Record) : (s.update n f).cr.graceInterval = s.cr.graceInterval := rfl

/-! ### create -/
@[simp] theorem State.create_trt (s : State) (make : Nat → Record) : (s.create make).trt = s.trt := rfl
@[simp] theorem State.create_wau (s : State) (make : Nat → Record) : (s.create make).wau = s.wau := rfl
@[simp] theorem State.create_pcc (s : State) (make : Nat → Record) : (s.create make).pcc = s.pcc := rfl
@[simp] theorem State.create_intake (s : State) (make : Nat → Record) : (s.create make).intake = s.intake := rfl
@[simp] theorem State.create_rc (s : State) (make : Nat → Record) : (s.create make).rc = s.rc := rfl
@[simp] theorem State.create_ls (s : State) (make : Nat → Record) : (s.create make).ls = s.ls := rfl
@[simp] theorem State.create_ss (s : State) (make : Nat → Record) : (s.create make).ss = s.ss := rfl
@[simp] theorem State.create_pins (s : State) (make : Nat → Record) : (s.create make).pins = s.pins := rfl
@[simp] theorem State.create_resetHeld (s : State) (make : Nat → Record) : (s.create make).resetHeld = s.resetHeld := rfl
@[simp] theorem State.create_pending (s : State) (make : Nat → Record) : (s.create make).pending = s.pending := rfl
@[simp] theorem State.create_cr_lists (s : State) (make : Nat → Record) : (s.create make).cr.lists = s.cr.lists := rfl
@[simp] theorem State.create_cr_night (s : State) (make : Nat → Record) : (s.create make).cr.night = s.cr.night := rfl
@[simp] theorem State.create_cr_totals (s : State) (make : Nat → Record) : (s.create make).cr.totals = s.cr.totals := rfl
@[simp] theorem State.create_cr_lossPending (s : State) (make : Nat → Record) : (s.create make).cr.lossPending = s.cr.lossPending := rfl
@[simp] theorem State.create_cr_storeValid (s : State) (make : Nat → Record) : (s.create make).cr.storeValid = s.cr.storeValid := rfl
@[simp] theorem State.create_cr_graceInterval (s : State) (make : Nat → Record) : (s.create make).cr.graceInterval = s.cr.graceInterval := rfl

/-! ### stopHandover -/
@[simp] theorem State.stopHandover_cr (s : State) (n : Nat) : (s.stopHandover n).cr = s.cr := rfl
@[simp] theorem State.stopHandover_trt (s : State) (n : Nat) : (s.stopHandover n).trt = s.trt := rfl
@[simp] theorem State.stopHandover_wau (s : State) (n : Nat) : (s.stopHandover n).wau = s.wau := rfl
@[simp] theorem State.stopHandover_pcc (s : State) (n : Nat) : (s.stopHandover n).pcc = s.pcc := rfl
@[simp] theorem State.stopHandover_intake (s : State) (n : Nat) : (s.stopHandover n).intake = s.intake := rfl
@[simp] theorem State.stopHandover_ls (s : State) (n : Nat) : (s.stopHandover n).ls = s.ls := rfl
@[simp] theorem State.stopHandover_ss (s : State) (n : Nat) : (s.stopHandover n).ss = s.ss := rfl
@[simp] theorem State.stopHandover_pins (s : State) (n : Nat) : (s.stopHandover n).pins = s.pins := rfl
@[simp] theorem State.stopHandover_resetHeld (s : State) (n : Nat) : (s.stopHandover n).resetHeld = s.resetHeld := rfl
@[simp] theorem State.stopHandover_pending (s : State) (n : Nat) : (s.stopHandover n).pending = s.pending := rfl
@[simp] theorem State.stopHandover_rc_roster (s : State) (n : Nat) : (s.stopHandover n).rc.roster = s.rc.roster := rfl
@[simp] theorem State.stopHandover_rc_wndw (s : State) (n : Nat) : (s.stopHandover n).rc.wndw = s.rc.wndw := rfl
@[simp] theorem State.stopHandover_rc_session (s : State) (n : Nat) : (s.stopHandover n).rc.session = s.rc.session := rfl
@[simp] theorem State.stopHandover_rc_openPocket (s : State) (n : Nat) : (s.stopHandover n).rc.openPocket = s.rc.openPocket := rfl
@[simp] theorem State.stopHandover_rc_hatch (s : State) (n : Nat) : (s.stopHandover n).rc.hatch = s.rc.hatch := rfl
@[simp] theorem State.stopHandover_rc_unopenedTimer (s : State) (n : Nat) : (s.stopHandover n).rc.unopenedTimer = s.rc.unopenedTimer := rfl
@[simp] theorem State.stopHandover_rc_guardMark (s : State) (n : Nat) : (s.stopHandover n).rc.guardMark = s.rc.guardMark := rfl
@[simp] theorem State.stopHandover_rc_lamp (s : State) (n : Nat) : (s.stopHandover n).rc.lamp = s.rc.lamp := rfl
@[simp] theorem State.stopHandover_rc_reader (s : State) (n : Nat) : (s.stopHandover n).rc.reader = s.rc.reader := rfl
@[simp] theorem State.stopHandover_rc_policy (s : State) (n : Nat) : (s.stopHandover n).rc.policy = s.rc.policy := rfl
@[simp] theorem State.stopHandover_rc_handoverInterval (s : State) (n : Nat) : (s.stopHandover n).rc.handoverInterval = s.rc.handoverInterval := rfl
@[simp] theorem State.stopHandover_rc_pairingInterval (s : State) (n : Nat) : (s.stopHandover n).rc.pairingInterval = s.rc.pairingInterval := rfl
@[simp] theorem State.stopHandover_rc_idleInterval (s : State) (n : Nat) : (s.stopHandover n).rc.idleInterval = s.rc.idleInterval := rfl

/-! ### startHandover -/
@[simp] theorem State.startHandover_cr (s : State) (n : Nat) : (s.startHandover n).cr = s.cr := rfl
@[simp] theorem State.startHandover_trt (s : State) (n : Nat) : (s.startHandover n).trt = s.trt := rfl
@[simp] theorem State.startHandover_wau (s : State) (n : Nat) : (s.startHandover n).wau = s.wau := rfl
@[simp] theorem State.startHandover_pcc (s : State) (n : Nat) : (s.startHandover n).pcc = s.pcc := rfl
@[simp] theorem State.startHandover_intake (s : State) (n : Nat) : (s.startHandover n).intake = s.intake := rfl
@[simp] theorem State.startHandover_ls (s : State) (n : Nat) : (s.startHandover n).ls = s.ls := rfl
@[simp] theorem State.startHandover_ss (s : State) (n : Nat) : (s.startHandover n).ss = s.ss := rfl
@[simp] theorem State.startHandover_pins (s : State) (n : Nat) : (s.startHandover n).pins = s.pins := rfl
@[simp] theorem State.startHandover_resetHeld (s : State) (n : Nat) : (s.startHandover n).resetHeld = s.resetHeld := rfl
@[simp] theorem State.startHandover_pending (s : State) (n : Nat) : (s.startHandover n).pending = s.pending := rfl
@[simp] theorem State.startHandover_rc_roster (s : State) (n : Nat) : (s.startHandover n).rc.roster = s.rc.roster := rfl
@[simp] theorem State.startHandover_rc_wndw (s : State) (n : Nat) : (s.startHandover n).rc.wndw = s.rc.wndw := rfl
@[simp] theorem State.startHandover_rc_session (s : State) (n : Nat) : (s.startHandover n).rc.session = s.rc.session := rfl
@[simp] theorem State.startHandover_rc_openPocket (s : State) (n : Nat) : (s.startHandover n).rc.openPocket = s.rc.openPocket := rfl
@[simp] theorem State.startHandover_rc_hatch (s : State) (n : Nat) : (s.startHandover n).rc.hatch = s.rc.hatch := rfl
@[simp] theorem State.startHandover_rc_unopenedTimer (s : State) (n : Nat) : (s.startHandover n).rc.unopenedTimer = s.rc.unopenedTimer := rfl
@[simp] theorem State.startHandover_rc_guardMark (s : State) (n : Nat) : (s.startHandover n).rc.guardMark = s.rc.guardMark := rfl
@[simp] theorem State.startHandover_rc_lamp (s : State) (n : Nat) : (s.startHandover n).rc.lamp = s.rc.lamp := rfl
@[simp] theorem State.startHandover_rc_reader (s : State) (n : Nat) : (s.startHandover n).rc.reader = s.rc.reader := rfl
@[simp] theorem State.startHandover_rc_policy (s : State) (n : Nat) : (s.startHandover n).rc.policy = s.rc.policy := rfl
@[simp] theorem State.startHandover_rc_handoverInterval (s : State) (n : Nat) : (s.startHandover n).rc.handoverInterval = s.rc.handoverInterval := rfl
@[simp] theorem State.startHandover_rc_pairingInterval (s : State) (n : Nat) : (s.startHandover n).rc.pairingInterval = s.rc.pairingInterval := rfl
@[simp] theorem State.startHandover_rc_idleInterval (s : State) (n : Nat) : (s.startHandover n).rc.idleInterval = s.rc.idleInterval := rfl

/-! ### remove -/
@[simp] theorem State.remove_trt (s : State) (n : Nat) : (s.remove n).trt = s.trt := rfl
@[simp] theorem State.remove_wau (s : State) (n : Nat) : (s.remove n).wau = s.wau := rfl
@[simp] theorem State.remove_pcc (s : State) (n : Nat) : (s.remove n).pcc = s.pcc := rfl
@[simp] theorem State.remove_intake (s : State) (n : Nat) : (s.remove n).intake = s.intake := rfl
@[simp] theorem State.remove_ls (s : State) (n : Nat) : (s.remove n).ls = s.ls := rfl
@[simp] theorem State.remove_ss (s : State) (n : Nat) : (s.remove n).ss = s.ss := rfl
@[simp] theorem State.remove_pins (s : State) (n : Nat) : (s.remove n).pins = s.pins := rfl
@[simp] theorem State.remove_resetHeld (s : State) (n : Nat) : (s.remove n).resetHeld = s.resetHeld := rfl
@[simp] theorem State.remove_pending (s : State) (n : Nat) : (s.remove n).pending = s.pending := rfl
@[simp] theorem State.remove_cr_receiptCounter (s : State) (n : Nat) : (s.remove n).cr.receiptCounter = s.cr.receiptCounter := rfl
@[simp] theorem State.remove_cr_lists (s : State) (n : Nat) : (s.remove n).cr.lists = s.cr.lists := rfl
@[simp] theorem State.remove_cr_night (s : State) (n : Nat) : (s.remove n).cr.night = s.cr.night := rfl
@[simp] theorem State.remove_cr_totals (s : State) (n : Nat) : (s.remove n).cr.totals = s.cr.totals := rfl
@[simp] theorem State.remove_cr_lossPending (s : State) (n : Nat) : (s.remove n).cr.lossPending = s.cr.lossPending := rfl
@[simp] theorem State.remove_cr_storeValid (s : State) (n : Nat) : (s.remove n).cr.storeValid = s.cr.storeValid := rfl
@[simp] theorem State.remove_cr_graceInterval (s : State) (n : Nat) : (s.remove n).cr.graceInterval = s.cr.graceInterval := rfl
@[simp] theorem State.remove_rc_roster (s : State) (n : Nat) : (s.remove n).rc.roster = s.rc.roster := rfl
@[simp] theorem State.remove_rc_wndw (s : State) (n : Nat) : (s.remove n).rc.wndw = s.rc.wndw := rfl
@[simp] theorem State.remove_rc_session (s : State) (n : Nat) : (s.remove n).rc.session = s.rc.session := rfl
@[simp] theorem State.remove_rc_openPocket (s : State) (n : Nat) : (s.remove n).rc.openPocket = s.rc.openPocket := rfl
@[simp] theorem State.remove_rc_hatch (s : State) (n : Nat) : (s.remove n).rc.hatch = s.rc.hatch := rfl
@[simp] theorem State.remove_rc_unopenedTimer (s : State) (n : Nat) : (s.remove n).rc.unopenedTimer = s.rc.unopenedTimer := rfl
@[simp] theorem State.remove_rc_guardMark (s : State) (n : Nat) : (s.remove n).rc.guardMark = s.rc.guardMark := rfl
@[simp] theorem State.remove_rc_lamp (s : State) (n : Nat) : (s.remove n).rc.lamp = s.rc.lamp := rfl
@[simp] theorem State.remove_rc_reader (s : State) (n : Nat) : (s.remove n).rc.reader = s.rc.reader := rfl
@[simp] theorem State.remove_rc_policy (s : State) (n : Nat) : (s.remove n).rc.policy = s.rc.policy := rfl
@[simp] theorem State.remove_rc_handoverInterval (s : State) (n : Nat) : (s.remove n).rc.handoverInterval = s.rc.handoverInterval := rfl
@[simp] theorem State.remove_rc_pairingInterval (s : State) (n : Nat) : (s.remove n).rc.pairingInterval = s.rc.pairingInterval := rfl
@[simp] theorem State.remove_rc_idleInterval (s : State) (n : Nat) : (s.remove n).rc.idleInterval = s.rc.idleInterval := rfl

/-! ### setPocket -/
@[simp] theorem State.setPocket_cr (s : State) (p : Fin 21) (x : Pocket) : (s.setPocket p x).cr = s.cr := rfl
@[simp] theorem State.setPocket_trt (s : State) (p : Fin 21) (x : Pocket) : (s.setPocket p x).trt = s.trt := rfl
@[simp] theorem State.setPocket_wau (s : State) (p : Fin 21) (x : Pocket) : (s.setPocket p x).wau = s.wau := rfl
@[simp] theorem State.setPocket_intake (s : State) (p : Fin 21) (x : Pocket) : (s.setPocket p x).intake = s.intake := rfl
@[simp] theorem State.setPocket_rc (s : State) (p : Fin 21) (x : Pocket) : (s.setPocket p x).rc = s.rc := rfl
@[simp] theorem State.setPocket_ls (s : State) (p : Fin 21) (x : Pocket) : (s.setPocket p x).ls = s.ls := rfl
@[simp] theorem State.setPocket_ss (s : State) (p : Fin 21) (x : Pocket) : (s.setPocket p x).ss = s.ss := rfl
@[simp] theorem State.setPocket_pins (s : State) (p : Fin 21) (x : Pocket) : (s.setPocket p x).pins = s.pins := rfl
@[simp] theorem State.setPocket_resetHeld (s : State) (p : Fin 21) (x : Pocket) : (s.setPocket p x).resetHeld = s.resetHeld := rfl
@[simp] theorem State.setPocket_pending (s : State) (p : Fin 21) (x : Pocket) : (s.setPocket p x).pending = s.pending := rfl
@[simp] theorem State.setPocket_pcc_hold (s : State) (p : Fin 21) (x : Pocket) : (s.setPocket p x).pcc.hold = s.pcc.hold := rfl
@[simp] theorem State.setPocket_pcc_drum (s : State) (p : Fin 21) (x : Pocket) : (s.setPocket p x).pcc.drum = s.pcc.drum := rfl
@[simp] theorem State.setPocket_pcc_position (s : State) (p : Fin 21) (x : Pocket) : (s.setPocket p x).pcc.position = s.pcc.position := rfl
@[simp] theorem State.setPocket_pcc_lastDir (s : State) (p : Fin 21) (x : Pocket) : (s.setPocket p x).pcc.lastDir = s.pcc.lastDir := rfl
@[simp] theorem State.setPocket_pcc_queue (s : State) (p : Fin 21) (x : Pocket) : (s.setPocket p x).pcc.queue = s.pcc.queue := rfl
@[simp] theorem State.setPocket_pcc_lastIntake (s : State) (p : Fin 21) (x : Pocket) : (s.setPocket p x).pcc.lastIntake = s.pcc.lastIntake := rfl
@[simp] theorem State.setPocket_pcc_stepInterval (s : State) (p : Fin 21) (x : Pocket) : (s.setPocket p x).pcc.stepInterval = s.pcc.stepInterval := rfl
@[simp] theorem State.setPocket_pcc_settleInterval (s : State) (p : Fin 21) (x : Pocket) : (s.setPocket p x).pcc.settleInterval = s.pcc.settleInterval := rfl
@[simp] theorem State.setPocket_pcc_prePosition (s : State) (p : Fin 21) (x : Pocket) : (s.setPocket p x).pcc.prePosition = s.pcc.prePosition := rfl
@[simp] theorem State.setPocket_pcc_weakOption (s : State) (p : Fin 21) (x : Pocket) : (s.setPocket p x).pcc.weakOption = s.pcc.weakOption := rfl

/-! ### setHold -/
@[simp] theorem State.setHold_cr (s : State) (h : Option Hold) : (s.setHold h).cr = s.cr := rfl
@[simp] theorem State.setHold_trt (s : State) (h : Option Hold) : (s.setHold h).trt = s.trt := rfl
@[simp] theorem State.setHold_wau (s : State) (h : Option Hold) : (s.setHold h).wau = s.wau := rfl
@[simp] theorem State.setHold_intake (s : State) (h : Option Hold) : (s.setHold h).intake = s.intake := rfl
@[simp] theorem State.setHold_rc (s : State) (h : Option Hold) : (s.setHold h).rc = s.rc := rfl
@[simp] theorem State.setHold_ls (s : State) (h : Option Hold) : (s.setHold h).ls = s.ls := rfl
@[simp] theorem State.setHold_ss (s : State) (h : Option Hold) : (s.setHold h).ss = s.ss := rfl
@[simp] theorem State.setHold_pins (s : State) (h : Option Hold) : (s.setHold h).pins = s.pins := rfl
@[simp] theorem State.setHold_resetHeld (s : State) (h : Option Hold) : (s.setHold h).resetHeld = s.resetHeld := rfl
@[simp] theorem State.setHold_pending (s : State) (h : Option Hold) : (s.setHold h).pending = s.pending := rfl
@[simp] theorem State.setHold_pcc_pockets (s : State) (h : Option Hold) : (s.setHold h).pcc.pockets = s.pcc.pockets := rfl
@[simp] theorem State.setHold_pcc_drum (s : State) (h : Option Hold) : (s.setHold h).pcc.drum = s.pcc.drum := rfl
@[simp] theorem State.setHold_pcc_position (s : State) (h : Option Hold) : (s.setHold h).pcc.position = s.pcc.position := rfl
@[simp] theorem State.setHold_pcc_lastDir (s : State) (h : Option Hold) : (s.setHold h).pcc.lastDir = s.pcc.lastDir := rfl
@[simp] theorem State.setHold_pcc_queue (s : State) (h : Option Hold) : (s.setHold h).pcc.queue = s.pcc.queue := rfl
@[simp] theorem State.setHold_pcc_lastIntake (s : State) (h : Option Hold) : (s.setHold h).pcc.lastIntake = s.pcc.lastIntake := rfl
@[simp] theorem State.setHold_pcc_stepInterval (s : State) (h : Option Hold) : (s.setHold h).pcc.stepInterval = s.pcc.stepInterval := rfl
@[simp] theorem State.setHold_pcc_settleInterval (s : State) (h : Option Hold) : (s.setHold h).pcc.settleInterval = s.pcc.settleInterval := rfl
@[simp] theorem State.setHold_pcc_prePosition (s : State) (h : Option Hold) : (s.setHold h).pcc.prePosition = s.pcc.prePosition := rfl
@[simp] theorem State.setHold_pcc_weakOption (s : State) (h : Option Hold) : (s.setHold h).pcc.weakOption = s.pcc.weakOption := rfl

/-! ### leavePocket -/
@[simp] theorem State.leavePocket_cr (s : State) (p : Fin 21) (r : Record) : (s.leavePocket p r).cr = s.cr := rfl
@[simp] theorem State.leavePocket_trt (s : State) (p : Fin 21) (r : Record) : (s.leavePocket p r).trt = s.trt := rfl
@[simp] theorem State.leavePocket_wau (s : State) (p : Fin 21) (r : Record) : (s.leavePocket p r).wau = s.wau := rfl
@[simp] theorem State.leavePocket_intake (s : State) (p : Fin 21) (r : Record) : (s.leavePocket p r).intake = s.intake := rfl
@[simp] theorem State.leavePocket_rc (s : State) (p : Fin 21) (r : Record) : (s.leavePocket p r).rc = s.rc := rfl
@[simp] theorem State.leavePocket_ls (s : State) (p : Fin 21) (r : Record) : (s.leavePocket p r).ls = s.ls := rfl
@[simp] theorem State.leavePocket_ss (s : State) (p : Fin 21) (r : Record) : (s.leavePocket p r).ss = s.ss := rfl
@[simp] theorem State.leavePocket_pins (s : State) (p : Fin 21) (r : Record) : (s.leavePocket p r).pins = s.pins := rfl
@[simp] theorem State.leavePocket_resetHeld (s : State) (p : Fin 21) (r : Record) : (s.leavePocket p r).resetHeld = s.resetHeld := rfl
@[simp] theorem State.leavePocket_pending (s : State) (p : Fin 21) (r : Record) : (s.leavePocket p r).pending = s.pending := rfl
@[simp] theorem State.leavePocket_pcc_hold (s : State) (p : Fin 21) (r : Record) : (s.leavePocket p r).pcc.hold = s.pcc.hold := rfl
@[simp] theorem State.leavePocket_pcc_drum (s : State) (p : Fin 21) (r : Record) : (s.leavePocket p r).pcc.drum = s.pcc.drum := rfl
@[simp] theorem State.leavePocket_pcc_position (s : State) (p : Fin 21) (r : Record) : (s.leavePocket p r).pcc.position = s.pcc.position := rfl
@[simp] theorem State.leavePocket_pcc_lastDir (s : State) (p : Fin 21) (r : Record) : (s.leavePocket p r).pcc.lastDir = s.pcc.lastDir := rfl
@[simp] theorem State.leavePocket_pcc_queue (s : State) (p : Fin 21) (r : Record) : (s.leavePocket p r).pcc.queue = s.pcc.queue := rfl
@[simp] theorem State.leavePocket_pcc_lastIntake (s : State) (p : Fin 21) (r : Record) : (s.leavePocket p r).pcc.lastIntake = s.pcc.lastIntake := rfl
@[simp] theorem State.leavePocket_pcc_stepInterval (s : State) (p : Fin 21) (r : Record) : (s.leavePocket p r).pcc.stepInterval = s.pcc.stepInterval := rfl
@[simp] theorem State.leavePocket_pcc_settleInterval (s : State) (p : Fin 21) (r : Record) : (s.leavePocket p r).pcc.settleInterval = s.pcc.settleInterval := rfl
@[simp] theorem State.leavePocket_pcc_prePosition (s : State) (p : Fin 21) (r : Record) : (s.leavePocket p r).pcc.prePosition = s.pcc.prePosition := rfl
@[simp] theorem State.leavePocket_pcc_weakOption (s : State) (p : Fin 21) (r : Record) : (s.leavePocket p r).pcc.weakOption = s.pcc.weakOption := rfl

/-! ### setList -/
@[simp] theorem State.setList_trt (s : State) (p : Fin 21) (l : List Nat) : (s.setList p l).trt = s.trt := rfl
@[simp] theorem State.setList_wau (s : State) (p : Fin 21) (l : List Nat) : (s.setList p l).wau = s.wau := rfl
@[simp] theorem State.setList_pcc (s : State) (p : Fin 21) (l : List Nat) : (s.setList p l).pcc = s.pcc := rfl
@[simp] theorem State.setList_intake (s : State) (p : Fin 21) (l : List Nat) : (s.setList p l).intake = s.intake := rfl
@[simp] theorem State.setList_rc (s : State) (p : Fin 21) (l : List Nat) : (s.setList p l).rc = s.rc := rfl
@[simp] theorem State.setList_ls (s : State) (p : Fin 21) (l : List Nat) : (s.setList p l).ls = s.ls := rfl
@[simp] theorem State.setList_ss (s : State) (p : Fin 21) (l : List Nat) : (s.setList p l).ss = s.ss := rfl
@[simp] theorem State.setList_pins (s : State) (p : Fin 21) (l : List Nat) : (s.setList p l).pins = s.pins := rfl
@[simp] theorem State.setList_resetHeld (s : State) (p : Fin 21) (l : List Nat) : (s.setList p l).resetHeld = s.resetHeld := rfl
@[simp] theorem State.setList_pending (s : State) (p : Fin 21) (l : List Nat) : (s.setList p l).pending = s.pending := rfl
@[simp] theorem State.setList_cr_records (s : State) (p : Fin 21) (l : List Nat) : (s.setList p l).cr.records = s.cr.records := rfl
@[simp] theorem State.setList_cr_tagIndex (s : State) (p : Fin 21) (l : List Nat) : (s.setList p l).cr.tagIndex = s.cr.tagIndex := rfl
@[simp] theorem State.setList_cr_receiptCounter (s : State) (p : Fin 21) (l : List Nat) : (s.setList p l).cr.receiptCounter = s.cr.receiptCounter := rfl
@[simp] theorem State.setList_cr_night (s : State) (p : Fin 21) (l : List Nat) : (s.setList p l).cr.night = s.cr.night := rfl
@[simp] theorem State.setList_cr_totals (s : State) (p : Fin 21) (l : List Nat) : (s.setList p l).cr.totals = s.cr.totals := rfl
@[simp] theorem State.setList_cr_lossPending (s : State) (p : Fin 21) (l : List Nat) : (s.setList p l).cr.lossPending = s.cr.lossPending := rfl
@[simp] theorem State.setList_cr_storeValid (s : State) (p : Fin 21) (l : List Nat) : (s.setList p l).cr.storeValid = s.cr.storeValid := rfl
@[simp] theorem State.setList_cr_graceInterval (s : State) (p : Fin 21) (l : List Nat) : (s.setList p l).cr.graceInterval = s.cr.graceInterval := rfl

/-! ### appendList -/
@[simp] theorem State.appendList_trt (s : State) (p : Fin 21) (n : Nat) : (s.appendList p n).trt = s.trt := rfl
@[simp] theorem State.appendList_wau (s : State) (p : Fin 21) (n : Nat) : (s.appendList p n).wau = s.wau := rfl
@[simp] theorem State.appendList_pcc (s : State) (p : Fin 21) (n : Nat) : (s.appendList p n).pcc = s.pcc := rfl
@[simp] theorem State.appendList_intake (s : State) (p : Fin 21) (n : Nat) : (s.appendList p n).intake = s.intake := rfl
@[simp] theorem State.appendList_rc (s : State) (p : Fin 21) (n : Nat) : (s.appendList p n).rc = s.rc := rfl
@[simp] theorem State.appendList_ls (s : State) (p : Fin 21) (n : Nat) : (s.appendList p n).ls = s.ls := rfl
@[simp] theorem State.appendList_ss (s : State) (p : Fin 21) (n : Nat) : (s.appendList p n).ss = s.ss := rfl
@[simp] theorem State.appendList_pins (s : State) (p : Fin 21) (n : Nat) : (s.appendList p n).pins = s.pins := rfl
@[simp] theorem State.appendList_resetHeld (s : State) (p : Fin 21) (n : Nat) : (s.appendList p n).resetHeld = s.resetHeld := rfl
@[simp] theorem State.appendList_pending (s : State) (p : Fin 21) (n : Nat) : (s.appendList p n).pending = s.pending := rfl
@[simp] theorem State.appendList_cr_records (s : State) (p : Fin 21) (n : Nat) : (s.appendList p n).cr.records = s.cr.records := rfl
@[simp] theorem State.appendList_cr_tagIndex (s : State) (p : Fin 21) (n : Nat) : (s.appendList p n).cr.tagIndex = s.cr.tagIndex := rfl
@[simp] theorem State.appendList_cr_receiptCounter (s : State) (p : Fin 21) (n : Nat) : (s.appendList p n).cr.receiptCounter = s.cr.receiptCounter := rfl
@[simp] theorem State.appendList_cr_night (s : State) (p : Fin 21) (n : Nat) : (s.appendList p n).cr.night = s.cr.night := rfl
@[simp] theorem State.appendList_cr_totals (s : State) (p : Fin 21) (n : Nat) : (s.appendList p n).cr.totals = s.cr.totals := rfl
@[simp] theorem State.appendList_cr_lossPending (s : State) (p : Fin 21) (n : Nat) : (s.appendList p n).cr.lossPending = s.cr.lossPending := rfl
@[simp] theorem State.appendList_cr_storeValid (s : State) (p : Fin 21) (n : Nat) : (s.appendList p n).cr.storeValid = s.cr.storeValid := rfl
@[simp] theorem State.appendList_cr_graceInterval (s : State) (p : Fin 21) (n : Nat) : (s.appendList p n).cr.graceInterval = s.cr.graceInterval := rfl

/-! ### dropFromList -/
@[simp] theorem State.dropFromList_trt (s : State) (p : Fin 21) (n : Nat) : (s.dropFromList p n).trt = s.trt := rfl
@[simp] theorem State.dropFromList_wau (s : State) (p : Fin 21) (n : Nat) : (s.dropFromList p n).wau = s.wau := rfl
@[simp] theorem State.dropFromList_pcc (s : State) (p : Fin 21) (n : Nat) : (s.dropFromList p n).pcc = s.pcc := rfl
@[simp] theorem State.dropFromList_intake (s : State) (p : Fin 21) (n : Nat) : (s.dropFromList p n).intake = s.intake := rfl
@[simp] theorem State.dropFromList_rc (s : State) (p : Fin 21) (n : Nat) : (s.dropFromList p n).rc = s.rc := rfl
@[simp] theorem State.dropFromList_ls (s : State) (p : Fin 21) (n : Nat) : (s.dropFromList p n).ls = s.ls := rfl
@[simp] theorem State.dropFromList_ss (s : State) (p : Fin 21) (n : Nat) : (s.dropFromList p n).ss = s.ss := rfl
@[simp] theorem State.dropFromList_pins (s : State) (p : Fin 21) (n : Nat) : (s.dropFromList p n).pins = s.pins := rfl
@[simp] theorem State.dropFromList_resetHeld (s : State) (p : Fin 21) (n : Nat) : (s.dropFromList p n).resetHeld = s.resetHeld := rfl
@[simp] theorem State.dropFromList_pending (s : State) (p : Fin 21) (n : Nat) : (s.dropFromList p n).pending = s.pending := rfl
@[simp] theorem State.dropFromList_cr_records (s : State) (p : Fin 21) (n : Nat) : (s.dropFromList p n).cr.records = s.cr.records := rfl
@[simp] theorem State.dropFromList_cr_tagIndex (s : State) (p : Fin 21) (n : Nat) : (s.dropFromList p n).cr.tagIndex = s.cr.tagIndex := rfl
@[simp] theorem State.dropFromList_cr_receiptCounter (s : State) (p : Fin 21) (n : Nat) : (s.dropFromList p n).cr.receiptCounter = s.cr.receiptCounter := rfl
@[simp] theorem State.dropFromList_cr_night (s : State) (p : Fin 21) (n : Nat) : (s.dropFromList p n).cr.night = s.cr.night := rfl
@[simp] theorem State.dropFromList_cr_totals (s : State) (p : Fin 21) (n : Nat) : (s.dropFromList p n).cr.totals = s.cr.totals := rfl
@[simp] theorem State.dropFromList_cr_lossPending (s : State) (p : Fin 21) (n : Nat) : (s.dropFromList p n).cr.lossPending = s.cr.lossPending := rfl
@[simp] theorem State.dropFromList_cr_storeValid (s : State) (p : Fin 21) (n : Nat) : (s.dropFromList p n).cr.storeValid = s.cr.storeValid := rfl
@[simp] theorem State.dropFromList_cr_graceInterval (s : State) (p : Fin 21) (n : Nat) : (s.dropFromList p n).cr.graceInterval = s.cr.graceInterval := rfl

/-! ### setIntake -/
@[simp] theorem State.setIntake_cr (s : State) (x : Intake) : (s.setIntake x).cr = s.cr := rfl
@[simp] theorem State.setIntake_trt (s : State) (x : Intake) : (s.setIntake x).trt = s.trt := rfl
@[simp] theorem State.setIntake_wau (s : State) (x : Intake) : (s.setIntake x).wau = s.wau := rfl
@[simp] theorem State.setIntake_pcc (s : State) (x : Intake) : (s.setIntake x).pcc = s.pcc := rfl
@[simp] theorem State.setIntake_rc (s : State) (x : Intake) : (s.setIntake x).rc = s.rc := rfl
@[simp] theorem State.setIntake_ls (s : State) (x : Intake) : (s.setIntake x).ls = s.ls := rfl
@[simp] theorem State.setIntake_ss (s : State) (x : Intake) : (s.setIntake x).ss = s.ss := rfl
@[simp] theorem State.setIntake_pins (s : State) (x : Intake) : (s.setIntake x).pins = s.pins := rfl
@[simp] theorem State.setIntake_resetHeld (s : State) (x : Intake) : (s.setIntake x).resetHeld = s.resetHeld := rfl
@[simp] theorem State.setIntake_pending (s : State) (x : Intake) : (s.setIntake x).pending = s.pending := rfl

/-! ### enterLoading -/
@[simp] theorem State.enterLoading_cr (s : State) : s.enterLoading.cr = s.cr := rfl
@[simp] theorem State.enterLoading_trt (s : State) : s.enterLoading.trt = s.trt := rfl
@[simp] theorem State.enterLoading_wau (s : State) : s.enterLoading.wau = s.wau := rfl
@[simp] theorem State.enterLoading_pcc (s : State) : s.enterLoading.pcc = s.pcc := rfl
@[simp] theorem State.enterLoading_rc (s : State) : s.enterLoading.rc = s.rc := rfl
@[simp] theorem State.enterLoading_ls (s : State) : s.enterLoading.ls = s.ls := rfl
@[simp] theorem State.enterLoading_ss (s : State) : s.enterLoading.ss = s.ss := rfl
@[simp] theorem State.enterLoading_pins (s : State) : s.enterLoading.pins = s.pins := rfl
@[simp] theorem State.enterLoading_resetHeld (s : State) : s.enterLoading.resetHeld = s.resetHeld := rfl
@[simp] theorem State.enterLoading_pending (s : State) : s.enterLoading.pending = s.pending := rfl
@[simp] theorem State.enterLoading_intake_tagWindow (s : State) : s.enterLoading.intake.tagWindow = s.intake.tagWindow := rfl
@[simp] theorem State.enterLoading_intake_weighTimer (s : State) : s.enterLoading.intake.weighTimer = s.intake.weighTimer := rfl
@[simp] theorem State.enterLoading_intake_tipTimer (s : State) : s.enterLoading.intake.tipTimer = s.intake.tipTimer := rfl
@[simp] theorem State.enterLoading_intake_reader (s : State) : s.enterLoading.intake.reader = s.intake.reader := rfl
@[simp] theorem State.enterLoading_intake_takeUp (s : State) : s.enterLoading.intake.takeUp = s.intake.takeUp := rfl

/-! ### enterIdentify -/
@[simp] theorem State.enterIdentify_cr (s : State) : s.enterIdentify.cr = s.cr := rfl
@[simp] theorem State.enterIdentify_trt (s : State) : s.enterIdentify.trt = s.trt := rfl
@[simp] theorem State.enterIdentify_wau (s : State) : s.enterIdentify.wau = s.wau := rfl
@[simp] theorem State.enterIdentify_pcc (s : State) : s.enterIdentify.pcc = s.pcc := rfl
@[simp] theorem State.enterIdentify_rc (s : State) : s.enterIdentify.rc = s.rc := rfl
@[simp] theorem State.enterIdentify_ls (s : State) : s.enterIdentify.ls = s.ls := rfl
@[simp] theorem State.enterIdentify_ss (s : State) : s.enterIdentify.ss = s.ss := rfl
@[simp] theorem State.enterIdentify_pins (s : State) : s.enterIdentify.pins = s.pins := rfl
@[simp] theorem State.enterIdentify_resetHeld (s : State) : s.enterIdentify.resetHeld = s.resetHeld := rfl
@[simp] theorem State.enterIdentify_pending (s : State) : s.enterIdentify.pending = s.pending := rfl
@[simp] theorem State.enterIdentify_intake_weighTimer (s : State) : s.enterIdentify.intake.weighTimer = s.intake.weighTimer := rfl
@[simp] theorem State.enterIdentify_intake_tipTimer (s : State) : s.enterIdentify.intake.tipTimer = s.intake.tipTimer := rfl
@[simp] theorem State.enterIdentify_intake_takeUp (s : State) : s.enterIdentify.intake.takeUp = s.intake.takeUp := rfl

/-! ### setPcc -/
@[simp] theorem State.setPcc_cr (s : State) (x : Carousel) : (s.setPcc x).cr = s.cr := rfl
@[simp] theorem State.setPcc_trt (s : State) (x : Carousel) : (s.setPcc x).trt = s.trt := rfl
@[simp] theorem State.setPcc_wau (s : State) (x : Carousel) : (s.setPcc x).wau = s.wau := rfl
@[simp] theorem State.setPcc_intake (s : State) (x : Carousel) : (s.setPcc x).intake = s.intake := rfl
@[simp] theorem State.setPcc_rc (s : State) (x : Carousel) : (s.setPcc x).rc = s.rc := rfl
@[simp] theorem State.setPcc_ls (s : State) (x : Carousel) : (s.setPcc x).ls = s.ls := rfl
@[simp] theorem State.setPcc_ss (s : State) (x : Carousel) : (s.setPcc x).ss = s.ss := rfl
@[simp] theorem State.setPcc_pins (s : State) (x : Carousel) : (s.setPcc x).pins = s.pins := rfl
@[simp] theorem State.setPcc_resetHeld (s : State) (x : Carousel) : (s.setPcc x).resetHeld = s.resetHeld := rfl
@[simp] theorem State.setPcc_pending (s : State) (x : Carousel) : (s.setPcc x).pending = s.pending := rfl

/-! ### setRc -/
@[simp] theorem State.setRc_cr (s : State) (x : Release) : (s.setRc x).cr = s.cr := rfl
@[simp] theorem State.setRc_trt (s : State) (x : Release) : (s.setRc x).trt = s.trt := rfl
@[simp] theorem State.setRc_wau (s : State) (x : Release) : (s.setRc x).wau = s.wau := rfl
@[simp] theorem State.setRc_pcc (s : State) (x : Release) : (s.setRc x).pcc = s.pcc := rfl
@[simp] theorem State.setRc_intake (s : State) (x : Release) : (s.setRc x).intake = s.intake := rfl
@[simp] theorem State.setRc_ls (s : State) (x : Release) : (s.setRc x).ls = s.ls := rfl
@[simp] theorem State.setRc_ss (s : State) (x : Release) : (s.setRc x).ss = s.ss := rfl
@[simp] theorem State.setRc_pins (s : State) (x : Release) : (s.setRc x).pins = s.pins := rfl
@[simp] theorem State.setRc_resetHeld (s : State) (x : Release) : (s.setRc x).resetHeld = s.resetHeld := rfl
@[simp] theorem State.setRc_pending (s : State) (x : Release) : (s.setRc x).pending = s.pending := rfl

/-! ### setQueue -/
@[simp] theorem State.setQueue_cr (s : State) (q : List PosRequest) : (s.setQueue q).cr = s.cr := rfl
@[simp] theorem State.setQueue_trt (s : State) (q : List PosRequest) : (s.setQueue q).trt = s.trt := rfl
@[simp] theorem State.setQueue_wau (s : State) (q : List PosRequest) : (s.setQueue q).wau = s.wau := rfl
@[simp] theorem State.setQueue_intake (s : State) (q : List PosRequest) : (s.setQueue q).intake = s.intake := rfl
@[simp] theorem State.setQueue_rc (s : State) (q : List PosRequest) : (s.setQueue q).rc = s.rc := rfl
@[simp] theorem State.setQueue_ls (s : State) (q : List PosRequest) : (s.setQueue q).ls = s.ls := rfl
@[simp] theorem State.setQueue_ss (s : State) (q : List PosRequest) : (s.setQueue q).ss = s.ss := rfl
@[simp] theorem State.setQueue_pins (s : State) (q : List PosRequest) : (s.setQueue q).pins = s.pins := rfl
@[simp] theorem State.setQueue_resetHeld (s : State) (q : List PosRequest) : (s.setQueue q).resetHeld = s.resetHeld := rfl
@[simp] theorem State.setQueue_pending (s : State) (q : List PosRequest) : (s.setQueue q).pending = s.pending := rfl
@[simp] theorem State.setQueue_pcc_pockets (s : State) (q : List PosRequest) : (s.setQueue q).pcc.pockets = s.pcc.pockets := rfl
@[simp] theorem State.setQueue_pcc_hold (s : State) (q : List PosRequest) : (s.setQueue q).pcc.hold = s.pcc.hold := rfl
@[simp] theorem State.setQueue_pcc_drum (s : State) (q : List PosRequest) : (s.setQueue q).pcc.drum = s.pcc.drum := rfl
@[simp] theorem State.setQueue_pcc_position (s : State) (q : List PosRequest) : (s.setQueue q).pcc.position = s.pcc.position := rfl
@[simp] theorem State.setQueue_pcc_lastDir (s : State) (q : List PosRequest) : (s.setQueue q).pcc.lastDir = s.pcc.lastDir := rfl
@[simp] theorem State.setQueue_pcc_lastIntake (s : State) (q : List PosRequest) : (s.setQueue q).pcc.lastIntake = s.pcc.lastIntake := rfl
@[simp] theorem State.setQueue_pcc_stepInterval (s : State) (q : List PosRequest) : (s.setQueue q).pcc.stepInterval = s.pcc.stepInterval := rfl
@[simp] theorem State.setQueue_pcc_settleInterval (s : State) (q : List PosRequest) : (s.setQueue q).pcc.settleInterval = s.pcc.settleInterval := rfl
@[simp] theorem State.setQueue_pcc_prePosition (s : State) (q : List PosRequest) : (s.setQueue q).pcc.prePosition = s.pcc.prePosition := rfl
@[simp] theorem State.setQueue_pcc_weakOption (s : State) (q : List PosRequest) : (s.setQueue q).pcc.weakOption = s.pcc.weakOption := rfl

/-! ### enterMoving -/
@[simp] theorem State.enterMoving_cr (s : State) (m : Move) : (s.enterMoving m).cr = s.cr := rfl
@[simp] theorem State.enterMoving_trt (s : State) (m : Move) : (s.enterMoving m).trt = s.trt := rfl
@[simp] theorem State.enterMoving_wau (s : State) (m : Move) : (s.enterMoving m).wau = s.wau := rfl
@[simp] theorem State.enterMoving_intake (s : State) (m : Move) : (s.enterMoving m).intake = s.intake := rfl
@[simp] theorem State.enterMoving_rc (s : State) (m : Move) : (s.enterMoving m).rc = s.rc := rfl
@[simp] theorem State.enterMoving_ls (s : State) (m : Move) : (s.enterMoving m).ls = s.ls := rfl
@[simp] theorem State.enterMoving_ss (s : State) (m : Move) : (s.enterMoving m).ss = s.ss := rfl
@[simp] theorem State.enterMoving_pins (s : State) (m : Move) : (s.enterMoving m).pins = s.pins := rfl
@[simp] theorem State.enterMoving_resetHeld (s : State) (m : Move) : (s.enterMoving m).resetHeld = s.resetHeld := rfl
@[simp] theorem State.enterMoving_pending (s : State) (m : Move) : (s.enterMoving m).pending = s.pending := rfl
@[simp] theorem State.enterMoving_pcc_pockets (s : State) (m : Move) : (s.enterMoving m).pcc.pockets = s.pcc.pockets := rfl
@[simp] theorem State.enterMoving_pcc_hold (s : State) (m : Move) : (s.enterMoving m).pcc.hold = s.pcc.hold := rfl
@[simp] theorem State.enterMoving_pcc_position (s : State) (m : Move) : (s.enterMoving m).pcc.position = s.pcc.position := rfl
@[simp] theorem State.enterMoving_pcc_queue (s : State) (m : Move) : (s.enterMoving m).pcc.queue = s.pcc.queue := rfl
@[simp] theorem State.enterMoving_pcc_lastIntake (s : State) (m : Move) : (s.enterMoving m).pcc.lastIntake = s.pcc.lastIntake := rfl
@[simp] theorem State.enterMoving_pcc_stepInterval (s : State) (m : Move) : (s.enterMoving m).pcc.stepInterval = s.pcc.stepInterval := rfl
@[simp] theorem State.enterMoving_pcc_settleInterval (s : State) (m : Move) : (s.enterMoving m).pcc.settleInterval = s.pcc.settleInterval := rfl
@[simp] theorem State.enterMoving_pcc_prePosition (s : State) (m : Move) : (s.enterMoving m).pcc.prePosition = s.pcc.prePosition := rfl
@[simp] theorem State.enterMoving_pcc_weakOption (s : State) (m : Move) : (s.enterMoving m).pcc.weakOption = s.pcc.weakOption := rfl

/-! ### unlockHatch -/
@[simp] theorem State.unlockHatch_cr (s : State) (q : Fin 21) : (s.unlockHatch q).cr = s.cr := rfl
@[simp] theorem State.unlockHatch_trt (s : State) (q : Fin 21) : (s.unlockHatch q).trt = s.trt := rfl
@[simp] theorem State.unlockHatch_wau (s : State) (q : Fin 21) : (s.unlockHatch q).wau = s.wau := rfl
@[simp] theorem State.unlockHatch_pcc (s : State) (q : Fin 21) : (s.unlockHatch q).pcc = s.pcc := rfl
@[simp] theorem State.unlockHatch_intake (s : State) (q : Fin 21) : (s.unlockHatch q).intake = s.intake := rfl
@[simp] theorem State.unlockHatch_ls (s : State) (q : Fin 21) : (s.unlockHatch q).ls = s.ls := rfl
@[simp] theorem State.unlockHatch_ss (s : State) (q : Fin 21) : (s.unlockHatch q).ss = s.ss := rfl
@[simp] theorem State.unlockHatch_pins (s : State) (q : Fin 21) : (s.unlockHatch q).pins = s.pins := rfl
@[simp] theorem State.unlockHatch_resetHeld (s : State) (q : Fin 21) : (s.unlockHatch q).resetHeld = s.resetHeld := rfl
@[simp] theorem State.unlockHatch_pending (s : State) (q : Fin 21) : (s.unlockHatch q).pending = s.pending := rfl
@[simp] theorem State.unlockHatch_rc_roster (s : State) (q : Fin 21) : (s.unlockHatch q).rc.roster = s.rc.roster := rfl
@[simp] theorem State.unlockHatch_rc_wndw (s : State) (q : Fin 21) : (s.unlockHatch q).rc.wndw = s.rc.wndw := rfl
@[simp] theorem State.unlockHatch_rc_policy (s : State) (q : Fin 21) : (s.unlockHatch q).rc.policy = s.rc.policy := rfl
@[simp] theorem State.unlockHatch_rc_handoverInterval (s : State) (q : Fin 21) : (s.unlockHatch q).rc.handoverInterval = s.rc.handoverInterval := rfl
@[simp] theorem State.unlockHatch_rc_pairingInterval (s : State) (q : Fin 21) : (s.unlockHatch q).rc.pairingInterval = s.rc.pairingInterval := rfl
@[simp] theorem State.unlockHatch_rc_idleInterval (s : State) (q : Fin 21) : (s.unlockHatch q).rc.idleInterval = s.rc.idleInterval := rfl
@[simp] theorem State.unlockHatch_rc_reader (s : State) (q : Fin 21) : (s.unlockHatch q).rc.reader = s.rc.reader := rfl
@[simp] theorem State.unlockHatch_rc_lamp (s : State) (q : Fin 21) : (s.unlockHatch q).rc.lamp = s.rc.lamp := rfl
@[simp] theorem State.unlockHatch_rc_session (s : State) (q : Fin 21) : (s.unlockHatch q).rc.session = s.rc.session := rfl
@[simp] theorem State.unlockHatch_rc_guardMark (s : State) (q : Fin 21) : (s.unlockHatch q).rc.guardMark = s.rc.guardMark := rfl
@[simp] theorem State.unlockHatch_rc_handoverTimers (s : State) (q : Fin 21) : (s.unlockHatch q).rc.handoverTimers = s.rc.handoverTimers := rfl

/-! ### endOpenPocket -/
@[simp] theorem State.endOpenPocket_cr (s : State) : s.endOpenPocket.cr = s.cr := rfl
@[simp] theorem State.endOpenPocket_trt (s : State) : s.endOpenPocket.trt = s.trt := rfl
@[simp] theorem State.endOpenPocket_wau (s : State) : s.endOpenPocket.wau = s.wau := rfl
@[simp] theorem State.endOpenPocket_pcc (s : State) : s.endOpenPocket.pcc = s.pcc := rfl
@[simp] theorem State.endOpenPocket_intake (s : State) : s.endOpenPocket.intake = s.intake := rfl
@[simp] theorem State.endOpenPocket_ls (s : State) : s.endOpenPocket.ls = s.ls := rfl
@[simp] theorem State.endOpenPocket_ss (s : State) : s.endOpenPocket.ss = s.ss := rfl
@[simp] theorem State.endOpenPocket_pins (s : State) : s.endOpenPocket.pins = s.pins := rfl
@[simp] theorem State.endOpenPocket_resetHeld (s : State) : s.endOpenPocket.resetHeld = s.resetHeld := rfl
@[simp] theorem State.endOpenPocket_pending (s : State) : s.endOpenPocket.pending = s.pending := rfl
@[simp] theorem State.endOpenPocket_rc_roster (s : State) : s.endOpenPocket.rc.roster = s.rc.roster := rfl
@[simp] theorem State.endOpenPocket_rc_wndw (s : State) : s.endOpenPocket.rc.wndw = s.rc.wndw := rfl
@[simp] theorem State.endOpenPocket_rc_policy (s : State) : s.endOpenPocket.rc.policy = s.rc.policy := rfl
@[simp] theorem State.endOpenPocket_rc_handoverInterval (s : State) : s.endOpenPocket.rc.handoverInterval = s.rc.handoverInterval := rfl
@[simp] theorem State.endOpenPocket_rc_pairingInterval (s : State) : s.endOpenPocket.rc.pairingInterval = s.rc.pairingInterval := rfl
@[simp] theorem State.endOpenPocket_rc_idleInterval (s : State) : s.endOpenPocket.rc.idleInterval = s.rc.idleInterval := rfl
@[simp] theorem State.endOpenPocket_rc_reader (s : State) : s.endOpenPocket.rc.reader = s.rc.reader := rfl
@[simp] theorem State.endOpenPocket_rc_lamp (s : State) : s.endOpenPocket.rc.lamp = s.rc.lamp := rfl
@[simp] theorem State.endOpenPocket_rc_session (s : State) : s.endOpenPocket.rc.session = s.rc.session := rfl
@[simp] theorem State.endOpenPocket_rc_hatch (s : State) : s.endOpenPocket.rc.hatch = s.rc.hatch := rfl
@[simp] theorem State.endOpenPocket_rc_unopenedTimer (s : State) : s.endOpenPocket.rc.unopenedTimer = s.rc.unopenedTimer := rfl
@[simp] theorem State.endOpenPocket_rc_handoverTimers (s : State) : s.endOpenPocket.rc.handoverTimers = s.rc.handoverTimers := rfl

/-! ### lockHatch -/
@[simp] theorem State.lockHatch_cr (s : State) : s.lockHatch.cr = s.cr := rfl
@[simp] theorem State.lockHatch_trt (s : State) : s.lockHatch.trt = s.trt := rfl
@[simp] theorem State.lockHatch_wau (s : State) : s.lockHatch.wau = s.wau := rfl
@[simp] theorem State.lockHatch_pcc (s : State) : s.lockHatch.pcc = s.pcc := rfl
@[simp] theorem State.lockHatch_intake (s : State) : s.lockHatch.intake = s.intake := rfl
@[simp] theorem State.lockHatch_ls (s : State) : s.lockHatch.ls = s.ls := rfl
@[simp] theorem State.lockHatch_ss (s : State) : s.lockHatch.ss = s.ss := rfl
@[simp] theorem State.lockHatch_pins (s : State) : s.lockHatch.pins = s.pins := rfl
@[simp] theorem State.lockHatch_resetHeld (s : State) : s.lockHatch.resetHeld = s.resetHeld := rfl
@[simp] theorem State.lockHatch_pending (s : State) : s.lockHatch.pending = s.pending := rfl
@[simp] theorem State.lockHatch_rc_roster (s : State) : s.lockHatch.rc.roster = s.rc.roster := rfl
@[simp] theorem State.lockHatch_rc_wndw (s : State) : s.lockHatch.rc.wndw = s.rc.wndw := rfl
@[simp] theorem State.lockHatch_rc_policy (s : State) : s.lockHatch.rc.policy = s.rc.policy := rfl
@[simp] theorem State.lockHatch_rc_handoverInterval (s : State) : s.lockHatch.rc.handoverInterval = s.rc.handoverInterval := rfl
@[simp] theorem State.lockHatch_rc_pairingInterval (s : State) : s.lockHatch.rc.pairingInterval = s.rc.pairingInterval := rfl
@[simp] theorem State.lockHatch_rc_idleInterval (s : State) : s.lockHatch.rc.idleInterval = s.rc.idleInterval := rfl
@[simp] theorem State.lockHatch_rc_reader (s : State) : s.lockHatch.rc.reader = s.rc.reader := rfl
@[simp] theorem State.lockHatch_rc_lamp (s : State) : s.lockHatch.rc.lamp = s.rc.lamp := rfl
@[simp] theorem State.lockHatch_rc_session (s : State) : s.lockHatch.rc.session = s.rc.session := rfl
@[simp] theorem State.lockHatch_rc_handoverTimers (s : State) : s.lockHatch.rc.handoverTimers = s.rc.handoverTimers := rfl

/-! ### enterTip -/
@[simp] theorem State.enterTip_cr (s : State) : s.enterTip.cr = s.cr := rfl
@[simp] theorem State.enterTip_trt (s : State) : s.enterTip.trt = s.trt := rfl
@[simp] theorem State.enterTip_wau (s : State) : s.enterTip.wau = s.wau := rfl
@[simp] theorem State.enterTip_pcc (s : State) : s.enterTip.pcc = s.pcc := rfl
@[simp] theorem State.enterTip_rc (s : State) : s.enterTip.rc = s.rc := rfl
@[simp] theorem State.enterTip_ls (s : State) : s.enterTip.ls = s.ls := rfl
@[simp] theorem State.enterTip_ss (s : State) : s.enterTip.ss = s.ss := rfl
@[simp] theorem State.enterTip_pins (s : State) : s.enterTip.pins = s.pins := rfl
@[simp] theorem State.enterTip_resetHeld (s : State) : s.enterTip.resetHeld = s.resetHeld := rfl
@[simp] theorem State.enterTip_pending (s : State) : s.enterTip.pending = s.pending := rfl
@[simp] theorem State.enterTip_intake_readings (s : State) : s.enterTip.intake.readings = s.intake.readings := rfl
@[simp] theorem State.enterTip_intake_drawerTimer (s : State) : s.enterTip.intake.drawerTimer = s.intake.drawerTimer := rfl
@[simp] theorem State.enterTip_intake_tagWindow (s : State) : s.enterTip.intake.tagWindow = s.intake.tagWindow := rfl
@[simp] theorem State.enterTip_intake_weighTimer (s : State) : s.enterTip.intake.weighTimer = s.intake.weighTimer := rfl
@[simp] theorem State.enterTip_intake_reader (s : State) : s.enterTip.intake.reader = s.intake.reader := rfl
@[simp] theorem State.enterTip_intake_takeUp (s : State) : s.enterTip.intake.takeUp = s.intake.takeUp := rfl

/-! ### setSession -/
@[simp] theorem State.setSession_cr (s : State) (x : Session) : (s.setSession x).cr = s.cr := rfl
@[simp] theorem State.setSession_trt (s : State) (x : Session) : (s.setSession x).trt = s.trt := rfl
@[simp] theorem State.setSession_wau (s : State) (x : Session) : (s.setSession x).wau = s.wau := rfl
@[simp] theorem State.setSession_pcc (s : State) (x : Session) : (s.setSession x).pcc = s.pcc := rfl
@[simp] theorem State.setSession_intake (s : State) (x : Session) : (s.setSession x).intake = s.intake := rfl
@[simp] theorem State.setSession_ls (s : State) (x : Session) : (s.setSession x).ls = s.ls := rfl
@[simp] theorem State.setSession_ss (s : State) (x : Session) : (s.setSession x).ss = s.ss := rfl
@[simp] theorem State.setSession_pins (s : State) (x : Session) : (s.setSession x).pins = s.pins := rfl
@[simp] theorem State.setSession_resetHeld (s : State) (x : Session) : (s.setSession x).resetHeld = s.resetHeld := rfl
@[simp] theorem State.setSession_pending (s : State) (x : Session) : (s.setSession x).pending = s.pending := rfl
@[simp] theorem State.setSession_rc_roster (s : State) (x : Session) : (s.setSession x).rc.roster = s.rc.roster := rfl
@[simp] theorem State.setSession_rc_wndw (s : State) (x : Session) : (s.setSession x).rc.wndw = s.rc.wndw := rfl
@[simp] theorem State.setSession_rc_openPocket (s : State) (x : Session) : (s.setSession x).rc.openPocket = s.rc.openPocket := rfl
@[simp] theorem State.setSession_rc_hatch (s : State) (x : Session) : (s.setSession x).rc.hatch = s.rc.hatch := rfl
@[simp] theorem State.setSession_rc_unopenedTimer (s : State) (x : Session) : (s.setSession x).rc.unopenedTimer = s.rc.unopenedTimer := rfl
@[simp] theorem State.setSession_rc_guardMark (s : State) (x : Session) : (s.setSession x).rc.guardMark = s.rc.guardMark := rfl
@[simp] theorem State.setSession_rc_lamp (s : State) (x : Session) : (s.setSession x).rc.lamp = s.rc.lamp := rfl
@[simp] theorem State.setSession_rc_reader (s : State) (x : Session) : (s.setSession x).rc.reader = s.rc.reader := rfl
@[simp] theorem State.setSession_rc_policy (s : State) (x : Session) : (s.setSession x).rc.policy = s.rc.policy := rfl
@[simp] theorem State.setSession_rc_handoverTimers (s : State) (x : Session) : (s.setSession x).rc.handoverTimers = s.rc.handoverTimers := rfl
@[simp] theorem State.setSession_rc_handoverInterval (s : State) (x : Session) : (s.setSession x).rc.handoverInterval = s.rc.handoverInterval := rfl
@[simp] theorem State.setSession_rc_pairingInterval (s : State) (x : Session) : (s.setSession x).rc.pairingInterval = s.rc.pairingInterval := rfl
@[simp] theorem State.setSession_rc_idleInterval (s : State) (x : Session) : (s.setSession x).rc.idleInterval = s.rc.idleInterval := rfl

/-! ### light -/
@[simp] theorem State.light_cr (s : State) (l : Lamp) : (s.light l).cr = s.cr := rfl
@[simp] theorem State.light_trt (s : State) (l : Lamp) : (s.light l).trt = s.trt := rfl
@[simp] theorem State.light_wau (s : State) (l : Lamp) : (s.light l).wau = s.wau := rfl
@[simp] theorem State.light_pcc (s : State) (l : Lamp) : (s.light l).pcc = s.pcc := rfl
@[simp] theorem State.light_intake (s : State) (l : Lamp) : (s.light l).intake = s.intake := rfl
@[simp] theorem State.light_ls (s : State) (l : Lamp) : (s.light l).ls = s.ls := rfl
@[simp] theorem State.light_ss (s : State) (l : Lamp) : (s.light l).ss = s.ss := rfl
@[simp] theorem State.light_pins (s : State) (l : Lamp) : (s.light l).pins = s.pins := rfl
@[simp] theorem State.light_resetHeld (s : State) (l : Lamp) : (s.light l).resetHeld = s.resetHeld := rfl
@[simp] theorem State.light_pending (s : State) (l : Lamp) : (s.light l).pending = s.pending := rfl
@[simp] theorem State.light_rc_roster (s : State) (l : Lamp) : (s.light l).rc.roster = s.rc.roster := rfl
@[simp] theorem State.light_rc_wndw (s : State) (l : Lamp) : (s.light l).rc.wndw = s.rc.wndw := rfl
@[simp] theorem State.light_rc_session (s : State) (l : Lamp) : (s.light l).rc.session = s.rc.session := rfl
@[simp] theorem State.light_rc_openPocket (s : State) (l : Lamp) : (s.light l).rc.openPocket = s.rc.openPocket := rfl
@[simp] theorem State.light_rc_hatch (s : State) (l : Lamp) : (s.light l).rc.hatch = s.rc.hatch := rfl
@[simp] theorem State.light_rc_unopenedTimer (s : State) (l : Lamp) : (s.light l).rc.unopenedTimer = s.rc.unopenedTimer := rfl
@[simp] theorem State.light_rc_guardMark (s : State) (l : Lamp) : (s.light l).rc.guardMark = s.rc.guardMark := rfl
@[simp] theorem State.light_rc_reader (s : State) (l : Lamp) : (s.light l).rc.reader = s.rc.reader := rfl
@[simp] theorem State.light_rc_policy (s : State) (l : Lamp) : (s.light l).rc.policy = s.rc.policy := rfl
@[simp] theorem State.light_rc_handoverTimers (s : State) (l : Lamp) : (s.light l).rc.handoverTimers = s.rc.handoverTimers := rfl
@[simp] theorem State.light_rc_handoverInterval (s : State) (l : Lamp) : (s.light l).rc.handoverInterval = s.rc.handoverInterval := rfl
@[simp] theorem State.light_rc_pairingInterval (s : State) (l : Lamp) : (s.light l).rc.pairingInterval = s.rc.pairingInterval := rfl
@[simp] theorem State.light_rc_idleInterval (s : State) (l : Lamp) : (s.light l).rc.idleInterval = s.rc.idleInterval := rfl

/-! ### setClock -/
@[simp] theorem State.setClock_cr (s : State) (c : Option Nat) : (s.setClock c).cr = s.cr := rfl
@[simp] theorem State.setClock_trt (s : State) (c : Option Nat) : (s.setClock c).trt = s.trt := rfl
@[simp] theorem State.setClock_wau (s : State) (c : Option Nat) : (s.setClock c).wau = s.wau := rfl
@[simp] theorem State.setClock_pcc (s : State) (c : Option Nat) : (s.setClock c).pcc = s.pcc := rfl
@[simp] theorem State.setClock_intake (s : State) (c : Option Nat) : (s.setClock c).intake = s.intake := rfl
@[simp] theorem State.setClock_rc (s : State) (c : Option Nat) : (s.setClock c).rc = s.rc := rfl
@[simp] theorem State.setClock_ss (s : State) (c : Option Nat) : (s.setClock c).ss = s.ss := rfl
@[simp] theorem State.setClock_pins (s : State) (c : Option Nat) : (s.setClock c).pins = s.pins := rfl
@[simp] theorem State.setClock_resetHeld (s : State) (c : Option Nat) : (s.setClock c).resetHeld = s.resetHeld := rfl
@[simp] theorem State.setClock_pending (s : State) (c : Option Nat) : (s.setClock c).pending = s.pending := rfl
@[simp] theorem State.setClock_ls_branch (s : State) (c : Option Nat) : (s.setClock c).ls.branch = s.ls.branch := rfl
@[simp] theorem State.setClock_ls_panel (s : State) (c : Option Nat) : (s.setClock c).ls.panel = s.ls.panel := rfl
@[simp] theorem State.setClock_ls_flags (s : State) (c : Option Nat) : (s.setClock c).ls.flags = s.ls.flags := rfl
@[simp] theorem State.setClock_ls_enables (s : State) (c : Option Nat) : (s.setClock c).ls.enables = s.ls.enables := rfl
@[simp] theorem State.setClock_ls_attention (s : State) (c : Option Nat) : (s.setClock c).ls.attention = s.ls.attention := rfl

/-! ### withTimers -/
@[simp] theorem State.withTimers_trt (s : State) (t : TimerValues) : (s.withTimers t).trt = s.trt := rfl
@[simp] theorem State.withTimers_wau (s : State) (t : TimerValues) : (s.withTimers t).wau = s.wau := rfl
@[simp] theorem State.withTimers_intake (s : State) (t : TimerValues) : (s.withTimers t).intake = s.intake := rfl
@[simp] theorem State.withTimers_ss (s : State) (t : TimerValues) : (s.withTimers t).ss = s.ss := rfl
@[simp] theorem State.withTimers_pins (s : State) (t : TimerValues) : (s.withTimers t).pins = s.pins := rfl
@[simp] theorem State.withTimers_resetHeld (s : State) (t : TimerValues) : (s.withTimers t).resetHeld = s.resetHeld := rfl
@[simp] theorem State.withTimers_pending (s : State) (t : TimerValues) : (s.withTimers t).pending = s.pending := rfl
@[simp] theorem State.withTimers_cr_records (s : State) (t : TimerValues) : (s.withTimers t).cr.records = s.cr.records := rfl
@[simp] theorem State.withTimers_cr_tagIndex (s : State) (t : TimerValues) : (s.withTimers t).cr.tagIndex = s.cr.tagIndex := rfl
@[simp] theorem State.withTimers_cr_receiptCounter (s : State) (t : TimerValues) : (s.withTimers t).cr.receiptCounter = s.cr.receiptCounter := rfl
@[simp] theorem State.withTimers_cr_lists (s : State) (t : TimerValues) : (s.withTimers t).cr.lists = s.cr.lists := rfl
@[simp] theorem State.withTimers_cr_night (s : State) (t : TimerValues) : (s.withTimers t).cr.night = s.cr.night := rfl
@[simp] theorem State.withTimers_cr_totals (s : State) (t : TimerValues) : (s.withTimers t).cr.totals = s.cr.totals := rfl
@[simp] theorem State.withTimers_cr_lossPending (s : State) (t : TimerValues) : (s.withTimers t).cr.lossPending = s.cr.lossPending := rfl
@[simp] theorem State.withTimers_cr_storeValid (s : State) (t : TimerValues) : (s.withTimers t).cr.storeValid = s.cr.storeValid := rfl
@[simp] theorem State.withTimers_pcc_pockets (s : State) (t : TimerValues) : (s.withTimers t).pcc.pockets = s.pcc.pockets := rfl
@[simp] theorem State.withTimers_pcc_hold (s : State) (t : TimerValues) : (s.withTimers t).pcc.hold = s.pcc.hold := rfl
@[simp] theorem State.withTimers_pcc_drum (s : State) (t : TimerValues) : (s.withTimers t).pcc.drum = s.pcc.drum := rfl
@[simp] theorem State.withTimers_pcc_position (s : State) (t : TimerValues) : (s.withTimers t).pcc.position = s.pcc.position := rfl
@[simp] theorem State.withTimers_pcc_lastDir (s : State) (t : TimerValues) : (s.withTimers t).pcc.lastDir = s.pcc.lastDir := rfl
@[simp] theorem State.withTimers_pcc_queue (s : State) (t : TimerValues) : (s.withTimers t).pcc.queue = s.pcc.queue := rfl
@[simp] theorem State.withTimers_pcc_lastIntake (s : State) (t : TimerValues) : (s.withTimers t).pcc.lastIntake = s.pcc.lastIntake := rfl
@[simp] theorem State.withTimers_rc_roster (s : State) (t : TimerValues) : (s.withTimers t).rc.roster = s.rc.roster := rfl
@[simp] theorem State.withTimers_rc_wndw (s : State) (t : TimerValues) : (s.withTimers t).rc.wndw = s.rc.wndw := rfl
@[simp] theorem State.withTimers_rc_session (s : State) (t : TimerValues) : (s.withTimers t).rc.session = s.rc.session := rfl
@[simp] theorem State.withTimers_rc_openPocket (s : State) (t : TimerValues) : (s.withTimers t).rc.openPocket = s.rc.openPocket := rfl
@[simp] theorem State.withTimers_rc_hatch (s : State) (t : TimerValues) : (s.withTimers t).rc.hatch = s.rc.hatch := rfl
@[simp] theorem State.withTimers_rc_unopenedTimer (s : State) (t : TimerValues) : (s.withTimers t).rc.unopenedTimer = s.rc.unopenedTimer := rfl
@[simp] theorem State.withTimers_rc_guardMark (s : State) (t : TimerValues) : (s.withTimers t).rc.guardMark = s.rc.guardMark := rfl
@[simp] theorem State.withTimers_rc_lamp (s : State) (t : TimerValues) : (s.withTimers t).rc.lamp = s.rc.lamp := rfl
@[simp] theorem State.withTimers_rc_reader (s : State) (t : TimerValues) : (s.withTimers t).rc.reader = s.rc.reader := rfl
@[simp] theorem State.withTimers_rc_policy (s : State) (t : TimerValues) : (s.withTimers t).rc.policy = s.rc.policy := rfl
@[simp] theorem State.withTimers_rc_handoverTimers (s : State) (t : TimerValues) : (s.withTimers t).rc.handoverTimers = s.rc.handoverTimers := rfl
@[simp] theorem State.withTimers_ls_branch (s : State) (t : TimerValues) : (s.withTimers t).ls.branch = s.ls.branch := rfl
@[simp] theorem State.withTimers_ls_panel (s : State) (t : TimerValues) : (s.withTimers t).ls.panel = s.ls.panel := rfl
@[simp] theorem State.withTimers_ls_flags (s : State) (t : TimerValues) : (s.withTimers t).ls.flags = s.ls.flags := rfl
@[simp] theorem State.withTimers_ls_clock (s : State) (t : TimerValues) : (s.withTimers t).ls.clock = s.ls.clock := rfl

end Sys2Proof.Machine
end

