-- ==== Sys2Proof/Laws/Blocks.lean ====
section
/-! SUPPORT. What the shared operations of several updates leave as it was: one lemma per block and per field. -/

namespace Sys2Proof.Machine

/-! ### enterPocket -/
@[simp] theorem State.enterPocket_cr (s : State) (p : Fin 21) (r : Record) : (s.enterPocket p r).cr = s.cr := by simp [State.enterPocket]
@[simp] theorem State.enterPocket_trt (s : State) (p : Fin 21) (r : Record) : (s.enterPocket p r).trt = s.trt := by simp [State.enterPocket]
@[simp] theorem State.enterPocket_wau (s : State) (p : Fin 21) (r : Record) : (s.enterPocket p r).wau = s.wau := by simp [State.enterPocket]
@[simp] theorem State.enterPocket_intake (s : State) (p : Fin 21) (r : Record) : (s.enterPocket p r).intake = s.intake := by simp [State.enterPocket]
@[simp] theorem State.enterPocket_rc (s : State) (p : Fin 21) (r : Record) : (s.enterPocket p r).rc = s.rc := by simp [State.enterPocket]
@[simp] theorem State.enterPocket_ss (s : State) (p : Fin 21) (r : Record) : (s.enterPocket p r).ss = s.ss := by simp [State.enterPocket]
@[simp] theorem State.enterPocket_pins (s : State) (p : Fin 21) (r : Record) : (s.enterPocket p r).pins = s.pins := by simp [State.enterPocket]
@[simp] theorem State.enterPocket_resetHeld (s : State) (p : Fin 21) (r : Record) : (s.enterPocket p r).resetHeld = s.resetHeld := by simp [State.enterPocket]
@[simp] theorem State.enterPocket_pending (s : State) (p : Fin 21) (r : Record) : (s.enterPocket p r).pending = s.pending := by simp [State.enterPocket]
@[simp] theorem State.enterPocket_pcc_hold (s : State) (p : Fin 21) (r : Record) : (s.enterPocket p r).pcc.hold = s.pcc.hold := by simp [State.enterPocket]
@[simp] theorem State.enterPocket_pcc_drum (s : State) (p : Fin 21) (r : Record) : (s.enterPocket p r).pcc.drum = s.pcc.drum := by simp [State.enterPocket]
@[simp] theorem State.enterPocket_pcc_position (s : State) (p : Fin 21) (r : Record) : (s.enterPocket p r).pcc.position = s.pcc.position := by simp [State.enterPocket]
@[simp] theorem State.enterPocket_pcc_lastDir (s : State) (p : Fin 21) (r : Record) : (s.enterPocket p r).pcc.lastDir = s.pcc.lastDir := by simp [State.enterPocket]
@[simp] theorem State.enterPocket_pcc_queue (s : State) (p : Fin 21) (r : Record) : (s.enterPocket p r).pcc.queue = s.pcc.queue := by simp [State.enterPocket]
@[simp] theorem State.enterPocket_pcc_lastIntake (s : State) (p : Fin 21) (r : Record) : (s.enterPocket p r).pcc.lastIntake = s.pcc.lastIntake := by simp [State.enterPocket]
@[simp] theorem State.enterPocket_pcc_stepInterval (s : State) (p : Fin 21) (r : Record) : (s.enterPocket p r).pcc.stepInterval = s.pcc.stepInterval := by simp [State.enterPocket]
@[simp] theorem State.enterPocket_pcc_settleInterval (s : State) (p : Fin 21) (r : Record) : (s.enterPocket p r).pcc.settleInterval = s.pcc.settleInterval := by simp [State.enterPocket]
@[simp] theorem State.enterPocket_pcc_prePosition (s : State) (p : Fin 21) (r : Record) : (s.enterPocket p r).pcc.prePosition = s.pcc.prePosition := by simp [State.enterPocket]
@[simp] theorem State.enterPocket_pcc_weakOption (s : State) (p : Fin 21) (r : Record) : (s.enterPocket p r).pcc.weakOption = s.pcc.weakOption := by simp [State.enterPocket]
@[simp] theorem State.enterPocket_ls_branch (s : State) (p : Fin 21) (r : Record) : (s.enterPocket p r).ls.branch = s.ls.branch := by simp [State.enterPocket]
@[simp] theorem State.enterPocket_ls_panel (s : State) (p : Fin 21) (r : Record) : (s.enterPocket p r).ls.panel = s.ls.panel := by simp [State.enterPocket]
@[simp] theorem State.enterPocket_ls_enables (s : State) (p : Fin 21) (r : Record) : (s.enterPocket p r).ls.enables = s.ls.enables := by simp [State.enterPocket]
@[simp] theorem State.enterPocket_ls_clock (s : State) (p : Fin 21) (r : Record) : (s.enterPocket p r).ls.clock = s.ls.clock := by simp [State.enterPocket]

/-! ### place -/
@[simp] theorem State.place_trt (s : State) (r : Record) (p : Fin 21) : (s.place r p).trt = s.trt := by simp [State.place]
@[simp] theorem State.place_wau (s : State) (r : Record) (p : Fin 21) : (s.place r p).wau = s.wau := by simp [State.place]
@[simp] theorem State.place_intake (s : State) (r : Record) (p : Fin 21) : (s.place r p).intake = s.intake := by simp [State.place]
@[simp] theorem State.place_rc (s : State) (r : Record) (p : Fin 21) : (s.place r p).rc = s.rc := by simp [State.place]
@[simp] theorem State.place_ss (s : State) (r : Record) (p : Fin 21) : (s.place r p).ss = s.ss := by simp [State.place]
@[simp] theorem State.place_pins (s : State) (r : Record) (p : Fin 21) : (s.place r p).pins = s.pins := by simp [State.place]
@[simp] theorem State.place_resetHeld (s : State) (r : Record) (p : Fin 21) : (s.place r p).resetHeld = s.resetHeld := by simp [State.place]
@[simp] theorem State.place_pending (s : State) (r : Record) (p : Fin 21) : (s.place r p).pending = s.pending := by simp [State.place]
@[simp] theorem State.place_cr_tagIndex (s : State) (r : Record) (p : Fin 21) : (s.place r p).cr.tagIndex = s.cr.tagIndex := by simp [State.place]
@[simp] theorem State.place_cr_receiptCounter (s : State) (r : Record) (p : Fin 21) : (s.place r p).cr.receiptCounter = s.cr.receiptCounter := by simp [State.place]
@[simp] theorem State.place_cr_night (s : State) (r : Record) (p : Fin 21) : (s.place r p).cr.night = s.cr.night := by simp [State.place]
@[simp] theorem State.place_cr_lossPending (s : State) (r : Record) (p : Fin 21) : (s.place r p).cr.lossPending = s.cr.lossPending := by simp [State.place]
@[simp] theorem State.place_cr_storeValid (s : State) (r : Record) (p : Fin 21) : (s.place r p).cr.storeValid = s.cr.storeValid := by simp [State.place]
@[simp] theorem State.place_cr_graceInterval (s : State) (r : Record) (p : Fin 21) : (s.place r p).cr.graceInterval = s.cr.graceInterval := by simp [State.place]
@[simp] theorem State.place_pcc_hold (s : State) (r : Record) (p : Fin 21) : (s.place r p).pcc.hold = s.pcc.hold := by simp [State.place]
@[simp] theorem State.place_pcc_drum (s : State) (r : Record) (p : Fin 21) : (s.place r p).pcc.drum = s.pcc.drum := by simp [State.place]
@[simp] theorem State.place_pcc_position (s : State) (r : Record) (p : Fin 21) : (s.place r p).pcc.position = s.pcc.position := by simp [State.place]
@[simp] theorem State.place_pcc_lastDir (s : State) (r : Record) (p : Fin 21) : (s.place r p).pcc.lastDir = s.pcc.lastDir := by simp [State.place]
@[simp] theorem State.place_pcc_queue (s : State) (r : Record) (p : Fin 21) : (s.place r p).pcc.queue = s.pcc.queue := by simp [State.place]
@[simp] theorem State.place_pcc_lastIntake (s : State) (r : Record) (p : Fin 21) : (s.place r p).pcc.lastIntake = s.pcc.lastIntake := by simp [State.place]
@[simp] theorem State.place_pcc_stepInterval (s : State) (r : Record) (p : Fin 21) : (s.place r p).pcc.stepInterval = s.pcc.stepInterval := by simp [State.place]
@[simp] theorem State.place_pcc_settleInterval (s : State) (r : Record) (p : Fin 21) : (s.place r p).pcc.settleInterval = s.pcc.settleInterval := by simp [State.place]
@[simp] theorem State.place_pcc_prePosition (s : State) (r : Record) (p : Fin 21) : (s.place r p).pcc.prePosition = s.pcc.prePosition := by simp [State.place]
@[simp] theorem State.place_pcc_weakOption (s : State) (r : Record) (p : Fin 21) : (s.place r p).pcc.weakOption = s.pcc.weakOption := by simp [State.place]
@[simp] theorem State.place_ls_branch (s : State) (r : Record) (p : Fin 21) : (s.place r p).ls.branch = s.ls.branch := by simp [State.place]
@[simp] theorem State.place_ls_panel (s : State) (r : Record) (p : Fin 21) : (s.place r p).ls.panel = s.ls.panel := by simp [State.place]
@[simp] theorem State.place_ls_enables (s : State) (r : Record) (p : Fin 21) : (s.place r p).ls.enables = s.ls.enables := by simp [State.place]
@[simp] theorem State.place_ls_clock (s : State) (r : Record) (p : Fin 21) : (s.place r p).ls.clock = s.ls.clock := by simp [State.place]

/-! ### stage -/
@[simp] theorem State.stage_trt (s : State) (r : Record) (q : Fin 21) : (s.stage r q).trt = s.trt := by simp [State.stage]
@[simp] theorem State.stage_wau (s : State) (r : Record) (q : Fin 21) : (s.stage r q).wau = s.wau := by simp [State.stage]
@[simp] theorem State.stage_intake (s : State) (r : Record) (q : Fin 21) : (s.stage r q).intake = s.intake := by simp [State.stage]
@[simp] theorem State.stage_ls (s : State) (r : Record) (q : Fin 21) : (s.stage r q).ls = s.ls := by simp [State.stage]
@[simp] theorem State.stage_ss (s : State) (r : Record) (q : Fin 21) : (s.stage r q).ss = s.ss := by simp [State.stage]
@[simp] theorem State.stage_pins (s : State) (r : Record) (q : Fin 21) : (s.stage r q).pins = s.pins := by simp [State.stage]
@[simp] theorem State.stage_resetHeld (s : State) (r : Record) (q : Fin 21) : (s.stage r q).resetHeld = s.resetHeld := by simp [State.stage]
@[simp] theorem State.stage_pending (s : State) (r : Record) (q : Fin 21) : (s.stage r q).pending = s.pending := by simp [State.stage]
@[simp] theorem State.stage_cr_tagIndex (s : State) (r : Record) (q : Fin 21) : (s.stage r q).cr.tagIndex = s.cr.tagIndex := by simp [State.stage]
@[simp] theorem State.stage_cr_receiptCounter (s : State) (r : Record) (q : Fin 21) : (s.stage r q).cr.receiptCounter = s.cr.receiptCounter := by simp [State.stage]
@[simp] theorem State.stage_cr_night (s : State) (r : Record) (q : Fin 21) : (s.stage r q).cr.night = s.cr.night := by simp [State.stage]
@[simp] theorem State.stage_cr_totals (s : State) (r : Record) (q : Fin 21) : (s.stage r q).cr.totals = s.cr.totals := by simp [State.stage]
@[simp] theorem State.stage_cr_lossPending (s : State) (r : Record) (q : Fin 21) : (s.stage r q).cr.lossPending = s.cr.lossPending := by simp [State.stage]
@[simp] theorem State.stage_cr_storeValid (s : State) (r : Record) (q : Fin 21) : (s.stage r q).cr.storeValid = s.cr.storeValid := by simp [State.stage]
@[simp] theorem State.stage_cr_graceInterval (s : State) (r : Record) (q : Fin 21) : (s.stage r q).cr.graceInterval = s.cr.graceInterval := by simp [State.stage]
@[simp] theorem State.stage_pcc_hold (s : State) (r : Record) (q : Fin 21) : (s.stage r q).pcc.hold = s.pcc.hold := by simp [State.stage]
@[simp] theorem State.stage_pcc_drum (s : State) (r : Record) (q : Fin 21) : (s.stage r q).pcc.drum = s.pcc.drum := by simp [State.stage]
@[simp] theorem State.stage_pcc_position (s : State) (r : Record) (q : Fin 21) : (s.stage r q).pcc.position = s.pcc.position := by simp [State.stage]
@[simp] theorem State.stage_pcc_lastDir (s : State) (r : Record) (q : Fin 21) : (s.stage r q).pcc.lastDir = s.pcc.lastDir := by simp [State.stage]
@[simp] theorem State.stage_pcc_queue (s : State) (r : Record) (q : Fin 21) : (s.stage r q).pcc.queue = s.pcc.queue := by simp [State.stage]
@[simp] theorem State.stage_pcc_lastIntake (s : State) (r : Record) (q : Fin 21) : (s.stage r q).pcc.lastIntake = s.pcc.lastIntake := by simp [State.stage]
@[simp] theorem State.stage_pcc_stepInterval (s : State) (r : Record) (q : Fin 21) : (s.stage r q).pcc.stepInterval = s.pcc.stepInterval := by simp [State.stage]
@[simp] theorem State.stage_pcc_settleInterval (s : State) (r : Record) (q : Fin 21) : (s.stage r q).pcc.settleInterval = s.pcc.settleInterval := by simp [State.stage]
@[simp] theorem State.stage_pcc_prePosition (s : State) (r : Record) (q : Fin 21) : (s.stage r q).pcc.prePosition = s.pcc.prePosition := by simp [State.stage]
@[simp] theorem State.stage_pcc_weakOption (s : State) (r : Record) (q : Fin 21) : (s.stage r q).pcc.weakOption = s.pcc.weakOption := by simp [State.stage]
@[simp] theorem State.stage_rc_roster (s : State) (r : Record) (q : Fin 21) : (s.stage r q).rc.roster = s.rc.roster := by simp [State.stage]
@[simp] theorem State.stage_rc_wndw (s : State) (r : Record) (q : Fin 21) : (s.stage r q).rc.wndw = s.rc.wndw := by simp [State.stage]
@[simp] theorem State.stage_rc_session (s : State) (r : Record) (q : Fin 21) : (s.stage r q).rc.session = s.rc.session := by simp [State.stage]
@[simp] theorem State.stage_rc_openPocket (s : State) (r : Record) (q : Fin 21) : (s.stage r q).rc.openPocket = s.rc.openPocket := by simp [State.stage]
@[simp] theorem State.stage_rc_hatch (s : State) (r : Record) (q : Fin 21) : (s.stage r q).rc.hatch = s.rc.hatch := by simp [State.stage]
@[simp] theorem State.stage_rc_unopenedTimer (s : State) (r : Record) (q : Fin 21) : (s.stage r q).rc.unopenedTimer = s.rc.unopenedTimer := by simp [State.stage]
@[simp] theorem State.stage_rc_guardMark (s : State) (r : Record) (q : Fin 21) : (s.stage r q).rc.guardMark = s.rc.guardMark := by simp [State.stage]
@[simp] theorem State.stage_rc_lamp (s : State) (r : Record) (q : Fin 21) : (s.stage r q).rc.lamp = s.rc.lamp := by simp [State.stage]
@[simp] theorem State.stage_rc_reader (s : State) (r : Record) (q : Fin 21) : (s.stage r q).rc.reader = s.rc.reader := by simp [State.stage]
@[simp] theorem State.stage_rc_policy (s : State) (r : Record) (q : Fin 21) : (s.stage r q).rc.policy = s.rc.policy := by simp [State.stage]
@[simp] theorem State.stage_rc_handoverInterval (s : State) (r : Record) (q : Fin 21) : (s.stage r q).rc.handoverInterval = s.rc.handoverInterval := by simp [State.stage]
@[simp] theorem State.stage_rc_pairingInterval (s : State) (r : Record) (q : Fin 21) : (s.stage r q).rc.pairingInterval = s.rc.pairingInterval := by simp [State.stage]
@[simp] theorem State.stage_rc_idleInterval (s : State) (r : Record) (q : Fin 21) : (s.stage r q).rc.idleInterval = s.rc.idleInterval := by simp [State.stage]

/-! ### giveBack -/
@[simp] theorem State.giveBack_trt (s : State) (r : Record) (q : Fin 21) : (s.giveBack r q).trt = s.trt := by simp [State.giveBack]
@[simp] theorem State.giveBack_wau (s : State) (r : Record) (q : Fin 21) : (s.giveBack r q).wau = s.wau := by simp [State.giveBack]
@[simp] theorem State.giveBack_intake (s : State) (r : Record) (q : Fin 21) : (s.giveBack r q).intake = s.intake := by simp [State.giveBack]
@[simp] theorem State.giveBack_ss (s : State) (r : Record) (q : Fin 21) : (s.giveBack r q).ss = s.ss := by simp [State.giveBack]
@[simp] theorem State.giveBack_pins (s : State) (r : Record) (q : Fin 21) : (s.giveBack r q).pins = s.pins := by simp [State.giveBack]
@[simp] theorem State.giveBack_resetHeld (s : State) (r : Record) (q : Fin 21) : (s.giveBack r q).resetHeld = s.resetHeld := by simp [State.giveBack]
@[simp] theorem State.giveBack_pending (s : State) (r : Record) (q : Fin 21) : (s.giveBack r q).pending = s.pending := by simp [State.giveBack]
@[simp] theorem State.giveBack_cr_tagIndex (s : State) (r : Record) (q : Fin 21) : (s.giveBack r q).cr.tagIndex = s.cr.tagIndex := by simp [State.giveBack]
@[simp] theorem State.giveBack_cr_receiptCounter (s : State) (r : Record) (q : Fin 21) : (s.giveBack r q).cr.receiptCounter = s.cr.receiptCounter := by simp [State.giveBack]
@[simp] theorem State.giveBack_cr_night (s : State) (r : Record) (q : Fin 21) : (s.giveBack r q).cr.night = s.cr.night := by simp [State.giveBack]
@[simp] theorem State.giveBack_cr_totals (s : State) (r : Record) (q : Fin 21) : (s.giveBack r q).cr.totals = s.cr.totals := by simp [State.giveBack]
@[simp] theorem State.giveBack_cr_lossPending (s : State) (r : Record) (q : Fin 21) : (s.giveBack r q).cr.lossPending = s.cr.lossPending := by simp [State.giveBack]
@[simp] theorem State.giveBack_cr_storeValid (s : State) (r : Record) (q : Fin 21) : (s.giveBack r q).cr.storeValid = s.cr.storeValid := by simp [State.giveBack]
@[simp] theorem State.giveBack_cr_graceInterval (s : State) (r : Record) (q : Fin 21) : (s.giveBack r q).cr.graceInterval = s.cr.graceInterval := by simp [State.giveBack]
@[simp] theorem State.giveBack_pcc_hold (s : State) (r : Record) (q : Fin 21) : (s.giveBack r q).pcc.hold = s.pcc.hold := by simp [State.giveBack]
@[simp] theorem State.giveBack_pcc_drum (s : State) (r : Record) (q : Fin 21) : (s.giveBack r q).pcc.drum = s.pcc.drum := by simp [State.giveBack]
@[simp] theorem State.giveBack_pcc_position (s : State) (r : Record) (q : Fin 21) : (s.giveBack r q).pcc.position = s.pcc.position := by simp [State.giveBack]
@[simp] theorem State.giveBack_pcc_lastDir (s : State) (r : Record) (q : Fin 21) : (s.giveBack r q).pcc.lastDir = s.pcc.lastDir := by simp [State.giveBack]
@[simp] theorem State.giveBack_pcc_queue (s : State) (r : Record) (q : Fin 21) : (s.giveBack r q).pcc.queue = s.pcc.queue := by simp [State.giveBack]
@[simp] theorem State.giveBack_pcc_lastIntake (s : State) (r : Record) (q : Fin 21) : (s.giveBack r q).pcc.lastIntake = s.pcc.lastIntake := by simp [State.giveBack]
@[simp] theorem State.giveBack_pcc_stepInterval (s : State) (r : Record) (q : Fin 21) : (s.giveBack r q).pcc.stepInterval = s.pcc.stepInterval := by simp [State.giveBack]
@[simp] theorem State.giveBack_pcc_settleInterval (s : State) (r : Record) (q : Fin 21) : (s.giveBack r q).pcc.settleInterval = s.pcc.settleInterval := by simp [State.giveBack]
@[simp] theorem State.giveBack_pcc_prePosition (s : State) (r : Record) (q : Fin 21) : (s.giveBack r q).pcc.prePosition = s.pcc.prePosition := by simp [State.giveBack]
@[simp] theorem State.giveBack_pcc_weakOption (s : State) (r : Record) (q : Fin 21) : (s.giveBack r q).pcc.weakOption = s.pcc.weakOption := by simp [State.giveBack]
@[simp] theorem State.giveBack_rc_roster (s : State) (r : Record) (q : Fin 21) : (s.giveBack r q).rc.roster = s.rc.roster := by simp [State.giveBack]
@[simp] theorem State.giveBack_rc_wndw (s : State) (r : Record) (q : Fin 21) : (s.giveBack r q).rc.wndw = s.rc.wndw := by simp [State.giveBack]
@[simp] theorem State.giveBack_rc_session (s : State) (r : Record) (q : Fin 21) : (s.giveBack r q).rc.session = s.rc.session := by simp [State.giveBack]
@[simp] theorem State.giveBack_rc_openPocket (s : State) (r : Record) (q : Fin 21) : (s.giveBack r q).rc.openPocket = s.rc.openPocket := by simp [State.giveBack]
@[simp] theorem State.giveBack_rc_hatch (s : State) (r : Record) (q : Fin 21) : (s.giveBack r q).rc.hatch = s.rc.hatch := by simp [State.giveBack]
@[simp] theorem State.giveBack_rc_unopenedTimer (s : State) (r : Record) (q : Fin 21) : (s.giveBack r q).rc.unopenedTimer = s.rc.unopenedTimer := by simp [State.giveBack]
@[simp] theorem State.giveBack_rc_guardMark (s : State) (r : Record) (q : Fin 21) : (s.giveBack r q).rc.guardMark = s.rc.guardMark := by simp [State.giveBack]
@[simp] theorem State.giveBack_rc_lamp (s : State) (r : Record) (q : Fin 21) : (s.giveBack r q).rc.lamp = s.rc.lamp := by simp [State.giveBack]
@[simp] theorem State.giveBack_rc_reader (s : State) (r : Record) (q : Fin 21) : (s.giveBack r q).rc.reader = s.rc.reader := by simp [State.giveBack]
@[simp] theorem State.giveBack_rc_policy (s : State) (r : Record) (q : Fin 21) : (s.giveBack r q).rc.policy = s.rc.policy := by simp [State.giveBack]
@[simp] theorem State.giveBack_rc_handoverInterval (s : State) (r : Record) (q : Fin 21) : (s.giveBack r q).rc.handoverInterval = s.rc.handoverInterval := by simp [State.giveBack]
@[simp] theorem State.giveBack_rc_pairingInterval (s : State) (r : Record) (q : Fin 21) : (s.giveBack r q).rc.pairingInterval = s.rc.pairingInterval := by simp [State.giveBack]
@[simp] theorem State.giveBack_rc_idleInterval (s : State) (r : Record) (q : Fin 21) : (s.giveBack r q).rc.idleInterval = s.rc.idleInterval := by simp [State.giveBack]
@[simp] theorem State.giveBack_ls_branch (s : State) (r : Record) (q : Fin 21) : (s.giveBack r q).ls.branch = s.ls.branch := by simp [State.giveBack]
@[simp] theorem State.giveBack_ls_panel (s : State) (r : Record) (q : Fin 21) : (s.giveBack r q).ls.panel = s.ls.panel := by simp [State.giveBack]
@[simp] theorem State.giveBack_ls_enables (s : State) (r : Record) (q : Fin 21) : (s.giveBack r q).ls.enables = s.ls.enables := by simp [State.giveBack]
@[simp] theorem State.giveBack_ls_clock (s : State) (r : Record) (q : Fin 21) : (s.giveBack r q).ls.clock = s.ls.clock := by simp [State.giveBack]

/-! ### startWau -/
@[simp] theorem State.startWau_cr (s : State) : s.startWau.cr = s.cr := by
  unfold State.startWau; dsimp only; (repeat' split) <;> simp
@[simp] theorem State.startWau_trt (s : State) : s.startWau.trt = s.trt := by
  unfold State.startWau; dsimp only; (repeat' split) <;> simp
@[simp] theorem State.startWau_pcc (s : State) : s.startWau.pcc = s.pcc := by
  unfold State.startWau; dsimp only; (repeat' split) <;> simp
@[simp] theorem State.startWau_intake (s : State) : s.startWau.intake = s.intake := by
  unfold State.startWau; dsimp only; (repeat' split) <;> simp
@[simp] theorem State.startWau_rc (s : State) : s.startWau.rc = s.rc := by
  unfold State.startWau; dsimp only; (repeat' split) <;> simp
@[simp] theorem State.startWau_ls (s : State) : s.startWau.ls = s.ls := by
  unfold State.startWau; dsimp only; (repeat' split) <;> simp
@[simp] theorem State.startWau_ss (s : State) : s.startWau.ss = s.ss := by
  unfold State.startWau; dsimp only; (repeat' split) <;> simp
@[simp] theorem State.startWau_pins (s : State) : s.startWau.pins = s.pins := by
  unfold State.startWau; dsimp only; (repeat' split) <;> simp
@[simp] theorem State.startWau_resetHeld (s : State) : s.startWau.resetHeld = s.resetHeld := by
  unfold State.startWau; dsimp only; (repeat' split) <;> simp
@[simp] theorem State.startWau_pending (s : State) : s.startWau.pending = s.pending := by
  unfold State.startWau; dsimp only; (repeat' split) <;> simp
@[simp] theorem State.startWau_wau_denoms (s : State) : s.startWau.wau.denoms = s.wau.denoms := by
  unfold State.startWau; dsimp only; (repeat' split) <;> simp
@[simp] theorem State.startWau_wau_tols (s : State) : s.startWau.wau.tols = s.wau.tols := by
  unfold State.startWau; dsimp only; (repeat' split) <;> simp

/-! ### queueJob -/
@[simp] theorem State.queueJob_trt (s : State) (n : Nat) (t : Option Tag) : (s.queueJob n t).trt = s.trt := by simp [State.queueJob]
@[simp] theorem State.queueJob_pcc (s : State) (n : Nat) (t : Option Tag) : (s.queueJob n t).pcc = s.pcc := by simp [State.queueJob]
@[simp] theorem State.queueJob_intake (s : State) (n : Nat) (t : Option Tag) : (s.queueJob n t).intake = s.intake := by simp [State.queueJob]
@[simp] theorem State.queueJob_rc (s : State) (n : Nat) (t : Option Tag) : (s.queueJob n t).rc = s.rc := by simp [State.queueJob]
@[simp] theorem State.queueJob_ls (s : State) (n : Nat) (t : Option Tag) : (s.queueJob n t).ls = s.ls := by simp [State.queueJob]
@[simp] theorem State.queueJob_ss (s : State) (n : Nat) (t : Option Tag) : (s.queueJob n t).ss = s.ss := by simp [State.queueJob]
@[simp] theorem State.queueJob_pins (s : State) (n : Nat) (t : Option Tag) : (s.queueJob n t).pins = s.pins := by simp [State.queueJob]
@[simp] theorem State.queueJob_resetHeld (s : State) (n : Nat) (t : Option Tag) : (s.queueJob n t).resetHeld = s.resetHeld := by simp [State.queueJob]
@[simp] theorem State.queueJob_pending (s : State) (n : Nat) (t : Option Tag) : (s.queueJob n t).pending = s.pending := by simp [State.queueJob]
@[simp] theorem State.queueJob_cr_tagIndex (s : State) (n : Nat) (t : Option Tag) : (s.queueJob n t).cr.tagIndex = s.cr.tagIndex := by simp [State.queueJob]
@[simp] theorem State.queueJob_cr_receiptCounter (s : State) (n : Nat) (t : Option Tag) : (s.queueJob n t).cr.receiptCounter = s.cr.receiptCounter := by simp [State.queueJob]
@[simp] theorem State.queueJob_cr_lists (s : State) (n : Nat) (t : Option Tag) : (s.queueJob n t).cr.lists = s.cr.lists := by simp [State.queueJob]
@[simp] theorem State.queueJob_cr_night (s : State) (n : Nat) (t : Option Tag) : (s.queueJob n t).cr.night = s.cr.night := by simp [State.queueJob]
@[simp] theorem State.queueJob_cr_totals (s : State) (n : Nat) (t : Option Tag) : (s.queueJob n t).cr.totals = s.cr.totals := by simp [State.queueJob]
@[simp] theorem State.queueJob_cr_lossPending (s : State) (n : Nat) (t : Option Tag) : (s.queueJob n t).cr.lossPending = s.cr.lossPending := by simp [State.queueJob]
@[simp] theorem State.queueJob_cr_storeValid (s : State) (n : Nat) (t : Option Tag) : (s.queueJob n t).cr.storeValid = s.cr.storeValid := by simp [State.queueJob]
@[simp] theorem State.queueJob_cr_graceInterval (s : State) (n : Nat) (t : Option Tag) : (s.queueJob n t).cr.graceInterval = s.cr.graceInterval := by simp [State.queueJob]
@[simp] theorem State.queueJob_wau_denoms (s : State) (n : Nat) (t : Option Tag) : (s.queueJob n t).wau.denoms = s.wau.denoms := by simp [State.queueJob]
@[simp] theorem State.queueJob_wau_tols (s : State) (n : Nat) (t : Option Tag) : (s.queueJob n t).wau.tols = s.wau.tols := by simp [State.queueJob]

/-! ### finishHead -/
@[simp] theorem State.finishHead_trt (s : State) : s.finishHead.trt = s.trt := by
  unfold State.finishHead; dsimp only; (repeat' split) <;> simp
@[simp] theorem State.finishHead_pcc (s : State) : s.finishHead.pcc = s.pcc := by
  unfold State.finishHead; dsimp only; (repeat' split) <;> simp
@[simp] theorem State.finishHead_intake (s : State) : s.finishHead.intake = s.intake := by
  unfold State.finishHead; dsimp only; (repeat' split) <;> simp
@[simp] theorem State.finishHead_rc (s : State) : s.finishHead.rc = s.rc := by
  unfold State.finishHead; dsimp only; (repeat' split) <;> simp
@[simp] theorem State.finishHead_ls (s : State) : s.finishHead.ls = s.ls := by
  unfold State.finishHead; dsimp only; (repeat' split) <;> simp
@[simp] theorem State.finishHead_ss (s : State) : s.finishHead.ss = s.ss := by
  unfold State.finishHead; dsimp only; (repeat' split) <;> simp
@[simp] theorem State.finishHead_pins (s : State) : s.finishHead.pins = s.pins := by
  unfold State.finishHead; dsimp only; (repeat' split) <;> simp
@[simp] theorem State.finishHead_resetHeld (s : State) : s.finishHead.resetHeld = s.resetHeld := by
  unfold State.finishHead; dsimp only; (repeat' split) <;> simp
@[simp] theorem State.finishHead_pending (s : State) : s.finishHead.pending = s.pending := by
  unfold State.finishHead; dsimp only; (repeat' split) <;> simp
@[simp] theorem State.finishHead_cr_tagIndex (s : State) : s.finishHead.cr.tagIndex = s.cr.tagIndex := by
  unfold State.finishHead; dsimp only; (repeat' split) <;> simp
@[simp] theorem State.finishHead_cr_receiptCounter (s : State) : s.finishHead.cr.receiptCounter = s.cr.receiptCounter := by
  unfold State.finishHead; dsimp only; (repeat' split) <;> simp
@[simp] theorem State.finishHead_cr_lists (s : State) : s.finishHead.cr.lists = s.cr.lists := by
  unfold State.finishHead; dsimp only; (repeat' split) <;> simp
@[simp] theorem State.finishHead_cr_night (s : State) : s.finishHead.cr.night = s.cr.night := by
  unfold State.finishHead; dsimp only; (repeat' split) <;> simp
@[simp] theorem State.finishHead_cr_totals (s : State) : s.finishHead.cr.totals = s.cr.totals := by
  unfold State.finishHead; dsimp only; (repeat' split) <;> simp
@[simp] theorem State.finishHead_cr_lossPending (s : State) : s.finishHead.cr.lossPending = s.cr.lossPending := by
  unfold State.finishHead; dsimp only; (repeat' split) <;> simp
@[simp] theorem State.finishHead_cr_storeValid (s : State) : s.finishHead.cr.storeValid = s.cr.storeValid := by
  unfold State.finishHead; dsimp only; (repeat' split) <;> simp
@[simp] theorem State.finishHead_cr_graceInterval (s : State) : s.finishHead.cr.graceInterval = s.cr.graceInterval := by
  unfold State.finishHead; dsimp only; (repeat' split) <;> simp
@[simp] theorem State.finishHead_wau_denoms (s : State) : s.finishHead.wau.denoms = s.wau.denoms := by
  unfold State.finishHead; dsimp only; (repeat' split) <;> simp
@[simp] theorem State.finishHead_wau_tols (s : State) : s.finishHead.wau.tols = s.wau.tols := by
  unfold State.finishHead; dsimp only; (repeat' split) <;> simp

/-! ### testChute -/
@[simp] theorem State.testChute_cr (s : State) : s.testChute.cr = s.cr := by
  unfold State.testChute; dsimp only; (repeat' split) <;> simp
@[simp] theorem State.testChute_trt (s : State) : s.testChute.trt = s.trt := by
  unfold State.testChute; dsimp only; (repeat' split) <;> simp
@[simp] theorem State.testChute_wau (s : State) : s.testChute.wau = s.wau := by
  unfold State.testChute; dsimp only; (repeat' split) <;> simp
@[simp] theorem State.testChute_rc (s : State) : s.testChute.rc = s.rc := by
  unfold State.testChute; dsimp only; (repeat' split) <;> simp
@[simp] theorem State.testChute_ss (s : State) : s.testChute.ss = s.ss := by
  unfold State.testChute; dsimp only; (repeat' split) <;> simp
@[simp] theorem State.testChute_pins (s : State) : s.testChute.pins = s.pins := by
  unfold State.testChute; dsimp only; (repeat' split) <;> simp
@[simp] theorem State.testChute_resetHeld (s : State) : s.testChute.resetHeld = s.resetHeld := by
  unfold State.testChute; dsimp only; (repeat' split) <;> simp
@[simp] theorem State.testChute_pending (s : State) : s.testChute.pending = s.pending := by
  unfold State.testChute; dsimp only; (repeat' split) <;> simp
@[simp] theorem State.testChute_pcc_pockets (s : State) : s.testChute.pcc.pockets = s.pcc.pockets := by
  unfold State.testChute; dsimp only; (repeat' split) <;> simp
@[simp] theorem State.testChute_pcc_drum (s : State) : s.testChute.pcc.drum = s.pcc.drum := by
  unfold State.testChute; dsimp only; (repeat' split) <;> simp
@[simp] theorem State.testChute_pcc_position (s : State) : s.testChute.pcc.position = s.pcc.position := by
  unfold State.testChute; dsimp only; (repeat' split) <;> simp
@[simp] theorem State.testChute_pcc_lastDir (s : State) : s.testChute.pcc.lastDir = s.pcc.lastDir := by
  unfold State.testChute; dsimp only; (repeat' split) <;> simp
@[simp] theorem State.testChute_pcc_queue (s : State) : s.testChute.pcc.queue = s.pcc.queue := by
  unfold State.testChute; dsimp only; (repeat' split) <;> simp
@[simp] theorem State.testChute_pcc_lastIntake (s : State) : s.testChute.pcc.lastIntake = s.pcc.lastIntake := by
  unfold State.testChute; dsimp only; (repeat' split) <;> simp
@[simp] theorem State.testChute_pcc_stepInterval (s : State) : s.testChute.pcc.stepInterval = s.pcc.stepInterval := by
  unfold State.testChute; dsimp only; (repeat' split) <;> simp
@[simp] theorem State.testChute_pcc_settleInterval (s : State) : s.testChute.pcc.settleInterval = s.pcc.settleInterval := by
  unfold State.testChute; dsimp only; (repeat' split) <;> simp
@[simp] theorem State.testChute_pcc_prePosition (s : State) : s.testChute.pcc.prePosition = s.pcc.prePosition := by
  unfold State.testChute; dsimp only; (repeat' split) <;> simp
@[simp] theorem State.testChute_pcc_weakOption (s : State) : s.testChute.pcc.weakOption = s.pcc.weakOption := by
  unfold State.testChute; dsimp only; (repeat' split) <;> simp
@[simp] theorem State.testChute_intake_readings (s : State) : s.testChute.intake.readings = s.intake.readings := by
  unfold State.testChute; dsimp only; (repeat' split) <;> simp
@[simp] theorem State.testChute_intake_drawerTimer (s : State) : s.testChute.intake.drawerTimer = s.intake.drawerTimer := by
  unfold State.testChute; dsimp only; (repeat' split) <;> simp
@[simp] theorem State.testChute_intake_tagWindow (s : State) : s.testChute.intake.tagWindow = s.intake.tagWindow := by
  unfold State.testChute; dsimp only; (repeat' split) <;> simp
@[simp] theorem State.testChute_intake_weighTimer (s : State) : s.testChute.intake.weighTimer = s.intake.weighTimer := by
  unfold State.testChute; dsimp only; (repeat' split) <;> simp
@[simp] theorem State.testChute_intake_tipTimer (s : State) : s.testChute.intake.tipTimer = s.intake.tipTimer := by
  unfold State.testChute; dsimp only; (repeat' split) <;> simp
@[simp] theorem State.testChute_intake_reader (s : State) : s.testChute.intake.reader = s.intake.reader := by
  unfold State.testChute; dsimp only; (repeat' split) <;> simp
@[simp] theorem State.testChute_intake_takeUp (s : State) : s.testChute.intake.takeUp = s.intake.takeUp := by
  unfold State.testChute; dsimp only; (repeat' split) <;> simp
@[simp] theorem State.testChute_ls_branch (s : State) : s.testChute.ls.branch = s.ls.branch := by
  unfold State.testChute; dsimp only; (repeat' split) <;> simp
@[simp] theorem State.testChute_ls_panel (s : State) : s.testChute.ls.panel = s.ls.panel := by
  unfold State.testChute; dsimp only; (repeat' split) <;> simp
@[simp] theorem State.testChute_ls_enables (s : State) : s.testChute.ls.enables = s.ls.enables := by
  unfold State.testChute; dsimp only; (repeat' split) <;> simp
@[simp] theorem State.testChute_ls_clock (s : State) : s.testChute.ls.clock = s.ls.clock := by
  unfold State.testChute; dsimp only; (repeat' split) <;> simp

/-! ### retest -/
@[simp] theorem State.retest_cr (s : State) : s.retest.cr = s.cr := by
  unfold State.retest; (repeat' split) <;> simp
@[simp] theorem State.retest_trt (s : State) : s.retest.trt = s.trt := by
  unfold State.retest; (repeat' split) <;> simp
@[simp] theorem State.retest_wau (s : State) : s.retest.wau = s.wau := by
  unfold State.retest; (repeat' split) <;> simp
@[simp] theorem State.retest_rc (s : State) : s.retest.rc = s.rc := by
  unfold State.retest; (repeat' split) <;> simp
@[simp] theorem State.retest_ss (s : State) : s.retest.ss = s.ss := by
  unfold State.retest; (repeat' split) <;> simp
@[simp] theorem State.retest_pins (s : State) : s.retest.pins = s.pins := by
  unfold State.retest; (repeat' split) <;> simp
@[simp] theorem State.retest_resetHeld (s : State) : s.retest.resetHeld = s.resetHeld := by
  unfold State.retest; (repeat' split) <;> simp
@[simp] theorem State.retest_pending (s : State) : s.retest.pending = s.pending := by
  unfold State.retest; (repeat' split) <;> simp
@[simp] theorem State.retest_pcc_pockets (s : State) : s.retest.pcc.pockets = s.pcc.pockets := by
  unfold State.retest; (repeat' split) <;> simp
@[simp] theorem State.retest_pcc_drum (s : State) : s.retest.pcc.drum = s.pcc.drum := by
  unfold State.retest; (repeat' split) <;> simp
@[simp] theorem State.retest_pcc_position (s : State) : s.retest.pcc.position = s.pcc.position := by
  unfold State.retest; (repeat' split) <;> simp
@[simp] theorem State.retest_pcc_lastDir (s : State) : s.retest.pcc.lastDir = s.pcc.lastDir := by
  unfold State.retest; (repeat' split) <;> simp
@[simp] theorem State.retest_pcc_queue (s : State) : s.retest.pcc.queue = s.pcc.queue := by
  unfold State.retest; (repeat' split) <;> simp
@[simp] theorem State.retest_pcc_lastIntake (s : State) : s.retest.pcc.lastIntake = s.pcc.lastIntake := by
  unfold State.retest; (repeat' split) <;> simp
@[simp] theorem State.retest_pcc_stepInterval (s : State) : s.retest.pcc.stepInterval = s.pcc.stepInterval := by
  unfold State.retest; (repeat' split) <;> simp
@[simp] theorem State.retest_pcc_settleInterval (s : State) : s.retest.pcc.settleInterval = s.pcc.settleInterval := by
  unfold State.retest; (repeat' split) <;> simp
@[simp] theorem State.retest_pcc_prePosition (s : State) : s.retest.pcc.prePosition = s.pcc.prePosition := by
  unfold State.retest; (repeat' split) <;> simp
@[simp] theorem State.retest_pcc_weakOption (s : State) : s.retest.pcc.weakOption = s.pcc.weakOption := by
  unfold State.retest; (repeat' split) <;> simp
@[simp] theorem State.retest_intake_readings (s : State) : s.retest.intake.readings = s.intake.readings := by
  unfold State.retest; (repeat' split) <;> simp
@[simp] theorem State.retest_intake_drawerTimer (s : State) : s.retest.intake.drawerTimer = s.intake.drawerTimer := by
  unfold State.retest; (repeat' split) <;> simp
@[simp] theorem State.retest_intake_tagWindow (s : State) : s.retest.intake.tagWindow = s.intake.tagWindow := by
  unfold State.retest; (repeat' split) <;> simp
@[simp] theorem State.retest_intake_weighTimer (s : State) : s.retest.intake.weighTimer = s.intake.weighTimer := by
  unfold State.retest; (repeat' split) <;> simp
@[simp] theorem State.retest_intake_tipTimer (s : State) : s.retest.intake.tipTimer = s.intake.tipTimer := by
  unfold State.retest; (repeat' split) <;> simp
@[simp] theorem State.retest_intake_reader (s : State) : s.retest.intake.reader = s.intake.reader := by
  unfold State.retest; (repeat' split) <;> simp
@[simp] theorem State.retest_intake_takeUp (s : State) : s.retest.intake.takeUp = s.intake.takeUp := by
  unfold State.retest; (repeat' split) <;> simp
@[simp] theorem State.retest_ls_branch (s : State) : s.retest.ls.branch = s.ls.branch := by
  unfold State.retest; (repeat' split) <;> simp
@[simp] theorem State.retest_ls_panel (s : State) : s.retest.ls.panel = s.ls.panel := by
  unfold State.retest; (repeat' split) <;> simp
@[simp] theorem State.retest_ls_enables (s : State) : s.retest.ls.enables = s.ls.enables := by
  unfold State.retest; (repeat' split) <;> simp
@[simp] theorem State.retest_ls_clock (s : State) : s.retest.ls.clock = s.ls.clock := by
  unfold State.retest; (repeat' split) <;> simp

/-! ### askHold -/
@[simp] theorem State.askHold_cr (s : State) : s.askHold.cr = s.cr := by
  unfold State.askHold; (repeat' split) <;> simp
@[simp] theorem State.askHold_trt (s : State) : s.askHold.trt = s.trt := by
  unfold State.askHold; (repeat' split) <;> simp
@[simp] theorem State.askHold_wau (s : State) : s.askHold.wau = s.wau := by
  unfold State.askHold; (repeat' split) <;> simp
@[simp] theorem State.askHold_intake (s : State) : s.askHold.intake = s.intake := by
  unfold State.askHold; (repeat' split) <;> simp
@[simp] theorem State.askHold_rc (s : State) : s.askHold.rc = s.rc := by
  unfold State.askHold; (repeat' split) <;> simp
@[simp] theorem State.askHold_ls (s : State) : s.askHold.ls = s.ls := by
  unfold State.askHold; (repeat' split) <;> simp
@[simp] theorem State.askHold_ss (s : State) : s.askHold.ss = s.ss := by
  unfold State.askHold; (repeat' split) <;> simp
@[simp] theorem State.askHold_pins (s : State) : s.askHold.pins = s.pins := by
  unfold State.askHold; (repeat' split) <;> simp
@[simp] theorem State.askHold_resetHeld (s : State) : s.askHold.resetHeld = s.resetHeld := by
  unfold State.askHold; (repeat' split) <;> simp
@[simp] theorem State.askHold_pending (s : State) : s.askHold.pending = s.pending := by
  unfold State.askHold; (repeat' split) <;> simp
@[simp] theorem State.askHold_pcc_pockets (s : State) : s.askHold.pcc.pockets = s.pcc.pockets := by
  unfold State.askHold; (repeat' split) <;> simp
@[simp] theorem State.askHold_pcc_drum (s : State) : s.askHold.pcc.drum = s.pcc.drum := by
  unfold State.askHold; (repeat' split) <;> simp
@[simp] theorem State.askHold_pcc_position (s : State) : s.askHold.pcc.position = s.pcc.position := by
  unfold State.askHold; (repeat' split) <;> simp
@[simp] theorem State.askHold_pcc_lastDir (s : State) : s.askHold.pcc.lastDir = s.pcc.lastDir := by
  unfold State.askHold; (repeat' split) <;> simp
@[simp] theorem State.askHold_pcc_queue (s : State) : s.askHold.pcc.queue = s.pcc.queue := by
  unfold State.askHold; (repeat' split) <;> simp
@[simp] theorem State.askHold_pcc_lastIntake (s : State) : s.askHold.pcc.lastIntake = s.pcc.lastIntake := by
  unfold State.askHold; (repeat' split) <;> simp
@[simp] theorem State.askHold_pcc_stepInterval (s : State) : s.askHold.pcc.stepInterval = s.pcc.stepInterval := by
  unfold State.askHold; (repeat' split) <;> simp
@[simp] theorem State.askHold_pcc_settleInterval (s : State) : s.askHold.pcc.settleInterval = s.pcc.settleInterval := by
  unfold State.askHold; (repeat' split) <;> simp
@[simp] theorem State.askHold_pcc_prePosition (s : State) : s.askHold.pcc.prePosition = s.pcc.prePosition := by
  unfold State.askHold; (repeat' split) <;> simp
@[simp] theorem State.askHold_pcc_weakOption (s : State) : s.askHold.pcc.weakOption = s.pcc.weakOption := by
  unfold State.askHold; (repeat' split) <;> simp

/-! ### takeUpDrop -/
@[simp] theorem State.takeUpDrop_cr (s : State) : s.takeUpDrop.cr = s.cr := by
  unfold State.takeUpDrop; dsimp only; (repeat' split) <;> simp
@[simp] theorem State.takeUpDrop_trt (s : State) : s.takeUpDrop.trt = s.trt := by
  unfold State.takeUpDrop; dsimp only; (repeat' split) <;> simp
@[simp] theorem State.takeUpDrop_wau (s : State) : s.takeUpDrop.wau = s.wau := by
  unfold State.takeUpDrop; dsimp only; (repeat' split) <;> simp
@[simp] theorem State.takeUpDrop_rc (s : State) : s.takeUpDrop.rc = s.rc := by
  unfold State.takeUpDrop; dsimp only; (repeat' split) <;> simp
@[simp] theorem State.takeUpDrop_ss (s : State) : s.takeUpDrop.ss = s.ss := by
  unfold State.takeUpDrop; dsimp only; (repeat' split) <;> simp
@[simp] theorem State.takeUpDrop_pins (s : State) : s.takeUpDrop.pins = s.pins := by
  unfold State.takeUpDrop; dsimp only; (repeat' split) <;> simp
@[simp] theorem State.takeUpDrop_resetHeld (s : State) : s.takeUpDrop.resetHeld = s.resetHeld := by
  unfold State.takeUpDrop; dsimp only; (repeat' split) <;> simp
@[simp] theorem State.takeUpDrop_pending (s : State) : s.takeUpDrop.pending = s.pending := by
  unfold State.takeUpDrop; dsimp only; (repeat' split) <;> simp
@[simp] theorem State.takeUpDrop_pcc_pockets (s : State) : s.takeUpDrop.pcc.pockets = s.pcc.pockets := by
  unfold State.takeUpDrop; dsimp only; (repeat' split) <;> simp
@[simp] theorem State.takeUpDrop_pcc_drum (s : State) : s.takeUpDrop.pcc.drum = s.pcc.drum := by
  unfold State.takeUpDrop; dsimp only; (repeat' split) <;> simp
@[simp] theorem State.takeUpDrop_pcc_position (s : State) : s.takeUpDrop.pcc.position = s.pcc.position := by
  unfold State.takeUpDrop; dsimp only; (repeat' split) <;> simp
@[simp] theorem State.takeUpDrop_pcc_lastDir (s : State) : s.takeUpDrop.pcc.lastDir = s.pcc.lastDir := by
  unfold State.takeUpDrop; dsimp only; (repeat' split) <;> simp
@[simp] theorem State.takeUpDrop_pcc_queue (s : State) : s.takeUpDrop.pcc.queue = s.pcc.queue := by
  unfold State.takeUpDrop; dsimp only; (repeat' split) <;> simp
@[simp] theorem State.takeUpDrop_pcc_lastIntake (s : State) : s.takeUpDrop.pcc.lastIntake = s.pcc.lastIntake := by
  unfold State.takeUpDrop; dsimp only; (repeat' split) <;> simp
@[simp] theorem State.takeUpDrop_pcc_stepInterval (s : State) : s.takeUpDrop.pcc.stepInterval = s.pcc.stepInterval := by
  unfold State.takeUpDrop; dsimp only; (repeat' split) <;> simp
@[simp] theorem State.takeUpDrop_pcc_settleInterval (s : State) : s.takeUpDrop.pcc.settleInterval = s.pcc.settleInterval := by
  unfold State.takeUpDrop; dsimp only; (repeat' split) <;> simp
@[simp] theorem State.takeUpDrop_pcc_prePosition (s : State) : s.takeUpDrop.pcc.prePosition = s.pcc.prePosition := by
  unfold State.takeUpDrop; dsimp only; (repeat' split) <;> simp
@[simp] theorem State.takeUpDrop_pcc_weakOption (s : State) : s.takeUpDrop.pcc.weakOption = s.pcc.weakOption := by
  unfold State.takeUpDrop; dsimp only; (repeat' split) <;> simp
@[simp] theorem State.takeUpDrop_intake_weighTimer (s : State) : s.takeUpDrop.intake.weighTimer = s.intake.weighTimer := by
  unfold State.takeUpDrop; dsimp only; (repeat' split) <;> simp
@[simp] theorem State.takeUpDrop_intake_tipTimer (s : State) : s.takeUpDrop.intake.tipTimer = s.intake.tipTimer := by
  unfold State.takeUpDrop; dsimp only; (repeat' split) <;> simp
@[simp] theorem State.takeUpDrop_ls_branch (s : State) : s.takeUpDrop.ls.branch = s.ls.branch := by
  unfold State.takeUpDrop; dsimp only; (repeat' split) <;> simp
@[simp] theorem State.takeUpDrop_ls_panel (s : State) : s.takeUpDrop.ls.panel = s.ls.panel := by
  unfold State.takeUpDrop; dsimp only; (repeat' split) <;> simp
@[simp] theorem State.takeUpDrop_ls_enables (s : State) : s.takeUpDrop.ls.enables = s.ls.enables := by
  unfold State.takeUpDrop; dsimp only; (repeat' split) <;> simp
@[simp] theorem State.takeUpDrop_ls_clock (s : State) : s.takeUpDrop.ls.clock = s.ls.clock := by
  unfold State.takeUpDrop; dsimp only; (repeat' split) <;> simp

/-! ### afterDrumChange -/
@[simp] theorem State.afterDrumChange_cr (s : State) : s.afterDrumChange.cr = s.cr := by
  unfold State.afterDrumChange; (repeat' split) <;> simp
@[simp] theorem State.afterDrumChange_trt (s : State) : s.afterDrumChange.trt = s.trt := by
  unfold State.afterDrumChange; (repeat' split) <;> simp
@[simp] theorem State.afterDrumChange_wau (s : State) : s.afterDrumChange.wau = s.wau := by
  unfold State.afterDrumChange; (repeat' split) <;> simp
@[simp] theorem State.afterDrumChange_rc (s : State) : s.afterDrumChange.rc = s.rc := by
  unfold State.afterDrumChange; (repeat' split) <;> simp
@[simp] theorem State.afterDrumChange_ss (s : State) : s.afterDrumChange.ss = s.ss := by
  unfold State.afterDrumChange; (repeat' split) <;> simp
@[simp] theorem State.afterDrumChange_pins (s : State) : s.afterDrumChange.pins = s.pins := by
  unfold State.afterDrumChange; (repeat' split) <;> simp
@[simp] theorem State.afterDrumChange_resetHeld (s : State) : s.afterDrumChange.resetHeld = s.resetHeld := by
  unfold State.afterDrumChange; (repeat' split) <;> simp
@[simp] theorem State.afterDrumChange_pending (s : State) : s.afterDrumChange.pending = s.pending := by
  unfold State.afterDrumChange; (repeat' split) <;> simp
@[simp] theorem State.afterDrumChange_pcc_pockets (s : State) : s.afterDrumChange.pcc.pockets = s.pcc.pockets := by
  unfold State.afterDrumChange; (repeat' split) <;> simp
@[simp] theorem State.afterDrumChange_pcc_drum (s : State) : s.afterDrumChange.pcc.drum = s.pcc.drum := by
  unfold State.afterDrumChange; (repeat' split) <;> simp
@[simp] theorem State.afterDrumChange_pcc_position (s : State) : s.afterDrumChange.pcc.position = s.pcc.position := by
  unfold State.afterDrumChange; (repeat' split) <;> simp
@[simp] theorem State.afterDrumChange_pcc_lastDir (s : State) : s.afterDrumChange.pcc.lastDir = s.pcc.lastDir := by
  unfold State.afterDrumChange; (repeat' split) <;> simp
@[simp] theorem State.afterDrumChange_pcc_queue (s : State) : s.afterDrumChange.pcc.queue = s.pcc.queue := by
  unfold State.afterDrumChange; (repeat' split) <;> simp
@[simp] theorem State.afterDrumChange_pcc_lastIntake (s : State) : s.afterDrumChange.pcc.lastIntake = s.pcc.lastIntake := by
  unfold State.afterDrumChange; (repeat' split) <;> simp
@[simp] theorem State.afterDrumChange_pcc_stepInterval (s : State) : s.afterDrumChange.pcc.stepInterval = s.pcc.stepInterval := by
  unfold State.afterDrumChange; (repeat' split) <;> simp
@[simp] theorem State.afterDrumChange_pcc_settleInterval (s : State) : s.afterDrumChange.pcc.settleInterval = s.pcc.settleInterval := by
  unfold State.afterDrumChange; (repeat' split) <;> simp
@[simp] theorem State.afterDrumChange_pcc_prePosition (s : State) : s.afterDrumChange.pcc.prePosition = s.pcc.prePosition := by
  unfold State.afterDrumChange; (repeat' split) <;> simp
@[simp] theorem State.afterDrumChange_pcc_weakOption (s : State) : s.afterDrumChange.pcc.weakOption = s.pcc.weakOption := by
  unfold State.afterDrumChange; (repeat' split) <;> simp
@[simp] theorem State.afterDrumChange_intake_weighTimer (s : State) : s.afterDrumChange.intake.weighTimer = s.intake.weighTimer := by
  unfold State.afterDrumChange; (repeat' split) <;> simp
@[simp] theorem State.afterDrumChange_intake_tipTimer (s : State) : s.afterDrumChange.intake.tipTimer = s.intake.tipTimer := by
  unfold State.afterDrumChange; (repeat' split) <;> simp
@[simp] theorem State.afterDrumChange_ls_branch (s : State) : s.afterDrumChange.ls.branch = s.ls.branch := by
  unfold State.afterDrumChange; (repeat' split) <;> simp
@[simp] theorem State.afterDrumChange_ls_panel (s : State) : s.afterDrumChange.ls.panel = s.ls.panel := by
  unfold State.afterDrumChange; (repeat' split) <;> simp
@[simp] theorem State.afterDrumChange_ls_enables (s : State) : s.afterDrumChange.ls.enables = s.ls.enables := by
  unfold State.afterDrumChange; (repeat' split) <;> simp
@[simp] theorem State.afterDrumChange_ls_clock (s : State) : s.afterDrumChange.ls.clock = s.ls.clock := by
  unfold State.afterDrumChange; (repeat' split) <;> simp

/-! ### startMove -/
@[simp] theorem State.startMove_cr (s : State) (t : Fin 21) (b : Bool) : (s.startMove t b).cr = s.cr := by
  unfold State.startMove; dsimp only; (repeat' split) <;> simp
@[simp] theorem State.startMove_trt (s : State) (t : Fin 21) (b : Bool) : (s.startMove t b).trt = s.trt := by
  unfold State.startMove; dsimp only; (repeat' split) <;> simp
@[simp] theorem State.startMove_wau (s : State) (t : Fin 21) (b : Bool) : (s.startMove t b).wau = s.wau := by
  unfold State.startMove; dsimp only; (repeat' split) <;> simp
@[simp] theorem State.startMove_intake (s : State) (t : Fin 21) (b : Bool) : (s.startMove t b).intake = s.intake := by
  unfold State.startMove; dsimp only; (repeat' split) <;> simp
@[simp] theorem State.startMove_rc (s : State) (t : Fin 21) (b : Bool) : (s.startMove t b).rc = s.rc := by
  unfold State.startMove; dsimp only; (repeat' split) <;> simp
@[simp] theorem State.startMove_ls (s : State) (t : Fin 21) (b : Bool) : (s.startMove t b).ls = s.ls := by
  unfold State.startMove; dsimp only; (repeat' split) <;> simp
@[simp] theorem State.startMove_ss (s : State) (t : Fin 21) (b : Bool) : (s.startMove t b).ss = s.ss := by
  unfold State.startMove; dsimp only; (repeat' split) <;> simp
@[simp] theorem State.startMove_pins (s : State) (t : Fin 21) (b : Bool) : (s.startMove t b).pins = s.pins := by
  unfold State.startMove; dsimp only; (repeat' split) <;> simp
@[simp] theorem State.startMove_resetHeld (s : State) (t : Fin 21) (b : Bool) : (s.startMove t b).resetHeld = s.resetHeld := by
  unfold State.startMove; dsimp only; (repeat' split) <;> simp
@[simp] theorem State.startMove_pending (s : State) (t : Fin 21) (b : Bool) : (s.startMove t b).pending = s.pending := by
  unfold State.startMove; dsimp only; (repeat' split) <;> simp
@[simp] theorem State.startMove_pcc_pockets (s : State) (t : Fin 21) (b : Bool) : (s.startMove t b).pcc.pockets = s.pcc.pockets := by
  unfold State.startMove; dsimp only; (repeat' split) <;> simp
@[simp] theorem State.startMove_pcc_hold (s : State) (t : Fin 21) (b : Bool) : (s.startMove t b).pcc.hold = s.pcc.hold := by
  unfold State.startMove; dsimp only; (repeat' split) <;> simp
@[simp] theorem State.startMove_pcc_position (s : State) (t : Fin 21) (b : Bool) : (s.startMove t b).pcc.position = s.pcc.position := by
  unfold State.startMove; dsimp only; (repeat' split) <;> simp
@[simp] theorem State.startMove_pcc_queue (s : State) (t : Fin 21) (b : Bool) : (s.startMove t b).pcc.queue = s.pcc.queue := by
  unfold State.startMove; dsimp only; (repeat' split) <;> simp
@[simp] theorem State.startMove_pcc_lastIntake (s : State) (t : Fin 21) (b : Bool) : (s.startMove t b).pcc.lastIntake = s.pcc.lastIntake := by
  unfold State.startMove; dsimp only; (repeat' split) <;> simp
@[simp] theorem State.startMove_pcc_stepInterval (s : State) (t : Fin 21) (b : Bool) : (s.startMove t b).pcc.stepInterval = s.pcc.stepInterval := by
  unfold State.startMove; dsimp only; (repeat' split) <;> simp
@[simp] theorem State.startMove_pcc_settleInterval (s : State) (t : Fin 21) (b : Bool) : (s.startMove t b).pcc.settleInterval = s.pcc.settleInterval := by
  unfold State.startMove; dsimp only; (repeat' split) <;> simp
@[simp] theorem State.startMove_pcc_prePosition (s : State) (t : Fin 21) (b : Bool) : (s.startMove t b).pcc.prePosition = s.pcc.prePosition := by
  unfold State.startMove; dsimp only; (repeat' split) <;> simp
@[simp] theorem State.startMove_pcc_weakOption (s : State) (t : Fin 21) (b : Bool) : (s.startMove t b).pcc.weakOption = s.pcc.weakOption := by
  unfold State.startMove; dsimp only; (repeat' split) <;> simp

/-! ### lockUnopened -/
@[simp] theorem State.lockUnopened_cr (s : State) : s.lockUnopened.cr = s.cr := by
  unfold State.lockUnopened; (repeat' split) <;> simp
@[simp] theorem State.lockUnopened_trt (s : State) : s.lockUnopened.trt = s.trt := by
  unfold State.lockUnopened; (repeat' split) <;> simp
@[simp] theorem State.lockUnopened_wau (s : State) : s.lockUnopened.wau = s.wau := by
  unfold State.lockUnopened; (repeat' split) <;> simp
@[simp] theorem State.lockUnopened_pcc (s : State) : s.lockUnopened.pcc = s.pcc := by
  unfold State.lockUnopened; (repeat' split) <;> simp
@[simp] theorem State.lockUnopened_intake (s : State) : s.lockUnopened.intake = s.intake := by
  unfold State.lockUnopened; (repeat' split) <;> simp
@[simp] theorem State.lockUnopened_ls (s : State) : s.lockUnopened.ls = s.ls := by
  unfold State.lockUnopened; (repeat' split) <;> simp
@[simp] theorem State.lockUnopened_ss (s : State) : s.lockUnopened.ss = s.ss := by
  unfold State.lockUnopened; (repeat' split) <;> simp
@[simp] theorem State.lockUnopened_pins (s : State) : s.lockUnopened.pins = s.pins := by
  unfold State.lockUnopened; (repeat' split) <;> simp
@[simp] theorem State.lockUnopened_resetHeld (s : State) : s.lockUnopened.resetHeld = s.resetHeld := by
  unfold State.lockUnopened; (repeat' split) <;> simp
@[simp] theorem State.lockUnopened_pending (s : State) : s.lockUnopened.pending = s.pending := by
  unfold State.lockUnopened; (repeat' split) <;> simp
@[simp] theorem State.lockUnopened_rc_roster (s : State) : s.lockUnopened.rc.roster = s.rc.roster := by
  unfold State.lockUnopened; (repeat' split) <;> simp
@[simp] theorem State.lockUnopened_rc_wndw (s : State) : s.lockUnopened.rc.wndw = s.rc.wndw := by
  unfold State.lockUnopened; (repeat' split) <;> simp
@[simp] theorem State.lockUnopened_rc_policy (s : State) : s.lockUnopened.rc.policy = s.rc.policy := by
  unfold State.lockUnopened; (repeat' split) <;> simp
@[simp] theorem State.lockUnopened_rc_handoverInterval (s : State) : s.lockUnopened.rc.handoverInterval = s.rc.handoverInterval := by
  unfold State.lockUnopened; (repeat' split) <;> simp
@[simp] theorem State.lockUnopened_rc_pairingInterval (s : State) : s.lockUnopened.rc.pairingInterval = s.rc.pairingInterval := by
  unfold State.lockUnopened; (repeat' split) <;> simp
@[simp] theorem State.lockUnopened_rc_idleInterval (s : State) : s.lockUnopened.rc.idleInterval = s.rc.idleInterval := by
  unfold State.lockUnopened; (repeat' split) <;> simp
@[simp] theorem State.lockUnopened_rc_reader (s : State) : s.lockUnopened.rc.reader = s.rc.reader := by
  unfold State.lockUnopened; (repeat' split) <;> simp
@[simp] theorem State.lockUnopened_rc_lamp (s : State) : s.lockUnopened.rc.lamp = s.rc.lamp := by
  unfold State.lockUnopened; (repeat' split) <;> simp
@[simp] theorem State.lockUnopened_rc_session (s : State) : s.lockUnopened.rc.session = s.rc.session := by
  unfold State.lockUnopened; (repeat' split) <;> simp
@[simp] theorem State.lockUnopened_rc_handoverTimers (s : State) : s.lockUnopened.rc.handoverTimers = s.rc.handoverTimers := by
  unfold State.lockUnopened; (repeat' split) <;> simp

/-! ### arrive -/
@[simp] theorem State.arrive_cr (s : State) : s.arrive.cr = s.cr := by
  unfold State.arrive; dsimp only; (repeat' split) <;> simp
@[simp] theorem State.arrive_trt (s : State) : s.arrive.trt = s.trt := by
  unfold State.arrive; dsimp only; (repeat' split) <;> simp
@[simp] theorem State.arrive_wau (s : State) : s.arrive.wau = s.wau := by
  unfold State.arrive; dsimp only; (repeat' split) <;> simp
@[simp] theorem State.arrive_ls (s : State) : s.arrive.ls = s.ls := by
  unfold State.arrive; dsimp only; (repeat' split) <;> simp
@[simp] theorem State.arrive_ss (s : State) : s.arrive.ss = s.ss := by
  unfold State.arrive; dsimp only; (repeat' split) <;> simp
@[simp] theorem State.arrive_pins (s : State) : s.arrive.pins = s.pins := by
  unfold State.arrive; dsimp only; (repeat' split) <;> simp
@[simp] theorem State.arrive_resetHeld (s : State) : s.arrive.resetHeld = s.resetHeld := by
  unfold State.arrive; dsimp only; (repeat' split) <;> simp
@[simp] theorem State.arrive_pending (s : State) : s.arrive.pending = s.pending := by
  unfold State.arrive; dsimp only; (repeat' split) <;> simp
@[simp] theorem State.arrive_pcc_pockets (s : State) : s.arrive.pcc.pockets = s.pcc.pockets := by
  unfold State.arrive; dsimp only; (repeat' split) <;> simp
@[simp] theorem State.arrive_pcc_hold (s : State) : s.arrive.pcc.hold = s.pcc.hold := by
  unfold State.arrive; dsimp only; (repeat' split) <;> simp
@[simp] theorem State.arrive_pcc_drum (s : State) : s.arrive.pcc.drum = s.pcc.drum := by
  unfold State.arrive; dsimp only; (repeat' split) <;> simp
@[simp] theorem State.arrive_pcc_position (s : State) : s.arrive.pcc.position = s.pcc.position := by
  unfold State.arrive; dsimp only; (repeat' split) <;> simp
@[simp] theorem State.arrive_pcc_lastDir (s : State) : s.arrive.pcc.lastDir = s.pcc.lastDir := by
  unfold State.arrive; dsimp only; (repeat' split) <;> simp
@[simp] theorem State.arrive_pcc_lastIntake (s : State) : s.arrive.pcc.lastIntake = s.pcc.lastIntake := by
  unfold State.arrive; dsimp only; (repeat' split) <;> simp
@[simp] theorem State.arrive_pcc_stepInterval (s : State) : s.arrive.pcc.stepInterval = s.pcc.stepInterval := by
  unfold State.arrive; dsimp only; (repeat' split) <;> simp
@[simp] theorem State.arrive_pcc_settleInterval (s : State) : s.arrive.pcc.settleInterval = s.pcc.settleInterval := by
  unfold State.arrive; dsimp only; (repeat' split) <;> simp
@[simp] theorem State.arrive_pcc_prePosition (s : State) : s.arrive.pcc.prePosition = s.pcc.prePosition := by
  unfold State.arrive; dsimp only; (repeat' split) <;> simp
@[simp] theorem State.arrive_pcc_weakOption (s : State) : s.arrive.pcc.weakOption = s.pcc.weakOption := by
  unfold State.arrive; dsimp only; (repeat' split) <;> simp
@[simp] theorem State.arrive_intake_readings (s : State) : s.arrive.intake.readings = s.intake.readings := by
  unfold State.arrive; dsimp only; (repeat' split) <;> simp
@[simp] theorem State.arrive_intake_drawerTimer (s : State) : s.arrive.intake.drawerTimer = s.intake.drawerTimer := by
  unfold State.arrive; dsimp only; (repeat' split) <;> simp
@[simp] theorem State.arrive_intake_tagWindow (s : State) : s.arrive.intake.tagWindow = s.intake.tagWindow := by
  unfold State.arrive; dsimp only; (repeat' split) <;> simp
@[simp] theorem State.arrive_intake_weighTimer (s : State) : s.arrive.intake.weighTimer = s.intake.weighTimer := by
  unfold State.arrive; dsimp only; (repeat' split) <;> simp
@[simp] theorem State.arrive_intake_reader (s : State) : s.arrive.intake.reader = s.intake.reader := by
  unfold State.arrive; dsimp only; (repeat' split) <;> simp
@[simp] theorem State.arrive_intake_takeUp (s : State) : s.arrive.intake.takeUp = s.intake.takeUp := by
  unfold State.arrive; dsimp only; (repeat' split) <;> simp
@[simp] theorem State.arrive_rc_roster (s : State) : s.arrive.rc.roster = s.rc.roster := by
  unfold State.arrive; dsimp only; (repeat' split) <;> simp
@[simp] theorem State.arrive_rc_wndw (s : State) : s.arrive.rc.wndw = s.rc.wndw := by
  unfold State.arrive; dsimp only; (repeat' split) <;> simp
@[simp] theorem State.arrive_rc_policy (s : State) : s.arrive.rc.policy = s.rc.policy := by
  unfold State.arrive; dsimp only; (repeat' split) <;> simp
@[simp] theorem State.arrive_rc_handoverInterval (s : State) : s.arrive.rc.handoverInterval = s.rc.handoverInterval := by
  unfold State.arrive; dsimp only; (repeat' split) <;> simp
@[simp] theorem State.arrive_rc_pairingInterval (s : State) : s.arrive.rc.pairingInterval = s.rc.pairingInterval := by
  unfold State.arrive; dsimp only; (repeat' split) <;> simp
@[simp] theorem State.arrive_rc_idleInterval (s : State) : s.arrive.rc.idleInterval = s.rc.idleInterval := by
  unfold State.arrive; dsimp only; (repeat' split) <;> simp
@[simp] theorem State.arrive_rc_reader (s : State) : s.arrive.rc.reader = s.rc.reader := by
  unfold State.arrive; dsimp only; (repeat' split) <;> simp
@[simp] theorem State.arrive_rc_lamp (s : State) : s.arrive.rc.lamp = s.rc.lamp := by
  unfold State.arrive; dsimp only; (repeat' split) <;> simp
@[simp] theorem State.arrive_rc_session (s : State) : s.arrive.rc.session = s.rc.session := by
  unfold State.arrive; dsimp only; (repeat' split) <;> simp
@[simp] theorem State.arrive_rc_guardMark (s : State) : s.arrive.rc.guardMark = s.rc.guardMark := by
  unfold State.arrive; dsimp only; (repeat' split) <;> simp
@[simp] theorem State.arrive_rc_handoverTimers (s : State) : s.arrive.rc.handoverTimers = s.rc.handoverTimers := by
  unfold State.arrive; dsimp only; (repeat' split) <;> simp

/-! ### serve -/
@[simp] theorem State.serve_cr (s : State) : s.serve.cr = s.cr := by
  unfold State.serve; dsimp only; (repeat' split) <;> simp
@[simp] theorem State.serve_trt (s : State) : s.serve.trt = s.trt := by
  unfold State.serve; dsimp only; (repeat' split) <;> simp
@[simp] theorem State.serve_wau (s : State) : s.serve.wau = s.wau := by
  unfold State.serve; dsimp only; (repeat' split) <;> simp
@[simp] theorem State.serve_ls (s : State) : s.serve.ls = s.ls := by
  unfold State.serve; dsimp only; (repeat' split) <;> simp
@[simp] theorem State.serve_ss (s : State) : s.serve.ss = s.ss := by
  unfold State.serve; dsimp only; (repeat' split) <;> simp
@[simp] theorem State.serve_pins (s : State) : s.serve.pins = s.pins := by
  unfold State.serve; dsimp only; (repeat' split) <;> simp
@[simp] theorem State.serve_resetHeld (s : State) : s.serve.resetHeld = s.resetHeld := by
  unfold State.serve; dsimp only; (repeat' split) <;> simp
@[simp] theorem State.serve_pending (s : State) : s.serve.pending = s.pending := by
  unfold State.serve; dsimp only; (repeat' split) <;> simp
@[simp] theorem State.serve_pcc_pockets (s : State) : s.serve.pcc.pockets = s.pcc.pockets := by
  unfold State.serve; dsimp only; (repeat' split) <;> simp
@[simp] theorem State.serve_pcc_hold (s : State) : s.serve.pcc.hold = s.pcc.hold := by
  unfold State.serve; dsimp only; (repeat' split) <;> simp
@[simp] theorem State.serve_pcc_position (s : State) : s.serve.pcc.position = s.pcc.position := by
  unfold State.serve; dsimp only; (repeat' split) <;> simp
@[simp] theorem State.serve_pcc_lastIntake (s : State) : s.serve.pcc.lastIntake = s.pcc.lastIntake := by
  unfold State.serve; dsimp only; (repeat' split) <;> simp
@[simp] theorem State.serve_pcc_stepInterval (s : State) : s.serve.pcc.stepInterval = s.pcc.stepInterval := by
  unfold State.serve; dsimp only; (repeat' split) <;> simp
@[simp] theorem State.serve_pcc_settleInterval (s : State) : s.serve.pcc.settleInterval = s.pcc.settleInterval := by
  unfold State.serve; dsimp only; (repeat' split) <;> simp
@[simp] theorem State.serve_pcc_prePosition (s : State) : s.serve.pcc.prePosition = s.pcc.prePosition := by
  unfold State.serve; dsimp only; (repeat' split) <;> simp
@[simp] theorem State.serve_pcc_weakOption (s : State) : s.serve.pcc.weakOption = s.pcc.weakOption := by
  unfold State.serve; dsimp only; (repeat' split) <;> simp
@[simp] theorem State.serve_intake_readings (s : State) : s.serve.intake.readings = s.intake.readings := by
  unfold State.serve; dsimp only; (repeat' split) <;> simp
@[simp] theorem State.serve_intake_drawerTimer (s : State) : s.serve.intake.drawerTimer = s.intake.drawerTimer := by
  unfold State.serve; dsimp only; (repeat' split) <;> simp
@[simp] theorem State.serve_intake_tagWindow (s : State) : s.serve.intake.tagWindow = s.intake.tagWindow := by
  unfold State.serve; dsimp only; (repeat' split) <;> simp
@[simp] theorem State.serve_intake_weighTimer (s : State) : s.serve.intake.weighTimer = s.intake.weighTimer := by
  unfold State.serve; dsimp only; (repeat' split) <;> simp
@[simp] theorem State.serve_intake_reader (s : State) : s.serve.intake.reader = s.intake.reader := by
  unfold State.serve; dsimp only; (repeat' split) <;> simp
@[simp] theorem State.serve_intake_takeUp (s : State) : s.serve.intake.takeUp = s.intake.takeUp := by
  unfold State.serve; dsimp only; (repeat' split) <;> simp
@[simp] theorem State.serve_rc_roster (s : State) : s.serve.rc.roster = s.rc.roster := by
  unfold State.serve; dsimp only; (repeat' split) <;> simp
@[simp] theorem State.serve_rc_wndw (s : State) : s.serve.rc.wndw = s.rc.wndw := by
  unfold State.serve; dsimp only; (repeat' split) <;> simp
@[simp] theorem State.serve_rc_policy (s : State) : s.serve.rc.policy = s.rc.policy := by
  unfold State.serve; dsimp only; (repeat' split) <;> simp
@[simp] theorem State.serve_rc_handoverInterval (s : State) : s.serve.rc.handoverInterval = s.rc.handoverInterval := by
  unfold State.serve; dsimp only; (repeat' split) <;> simp
@[simp] theorem State.serve_rc_pairingInterval (s : State) : s.serve.rc.pairingInterval = s.rc.pairingInterval := by
  unfold State.serve; dsimp only; (repeat' split) <;> simp
@[simp] theorem State.serve_rc_idleInterval (s : State) : s.serve.rc.idleInterval = s.rc.idleInterval := by
  unfold State.serve; dsimp only; (repeat' split) <;> simp
@[simp] theorem State.serve_rc_reader (s : State) : s.serve.rc.reader = s.rc.reader := by
  unfold State.serve; dsimp only; (repeat' split) <;> simp
@[simp] theorem State.serve_rc_lamp (s : State) : s.serve.rc.lamp = s.rc.lamp := by
  unfold State.serve; dsimp only; (repeat' split) <;> simp
@[simp] theorem State.serve_rc_session (s : State) : s.serve.rc.session = s.rc.session := by
  unfold State.serve; dsimp only; (repeat' split) <;> simp
@[simp] theorem State.serve_rc_guardMark (s : State) : s.serve.rc.guardMark = s.rc.guardMark := by
  unfold State.serve; dsimp only; (repeat' split) <;> simp
@[simp] theorem State.serve_rc_handoverTimers (s : State) : s.serve.rc.handoverTimers = s.rc.handoverTimers := by
  unfold State.serve; dsimp only; (repeat' split) <;> simp

/-! ### cutPreMove -/
@[simp] theorem State.cutPreMove_cr (s : State) : s.cutPreMove.cr = s.cr := by
  unfold State.cutPreMove; dsimp only; (repeat' split) <;> simp
@[simp] theorem State.cutPreMove_trt (s : State) : s.cutPreMove.trt = s.trt := by
  unfold State.cutPreMove; dsimp only; (repeat' split) <;> simp
@[simp] theorem State.cutPreMove_wau (s : State) : s.cutPreMove.wau = s.wau := by
  unfold State.cutPreMove; dsimp only; (repeat' split) <;> simp
@[simp] theorem State.cutPreMove_intake (s : State) : s.cutPreMove.intake = s.intake := by
  unfold State.cutPreMove; dsimp only; (repeat' split) <;> simp
@[simp] theorem State.cutPreMove_rc (s : State) : s.cutPreMove.rc = s.rc := by
  unfold State.cutPreMove; dsimp only; (repeat' split) <;> simp
@[simp] theorem State.cutPreMove_ls (s : State) : s.cutPreMove.ls = s.ls := by
  unfold State.cutPreMove; dsimp only; (repeat' split) <;> simp
@[simp] theorem State.cutPreMove_ss (s : State) : s.cutPreMove.ss = s.ss := by
  unfold State.cutPreMove; dsimp only; (repeat' split) <;> simp
@[simp] theorem State.cutPreMove_pins (s : State) : s.cutPreMove.pins = s.pins := by
  unfold State.cutPreMove; dsimp only; (repeat' split) <;> simp
@[simp] theorem State.cutPreMove_resetHeld (s : State) : s.cutPreMove.resetHeld = s.resetHeld := by
  unfold State.cutPreMove; dsimp only; (repeat' split) <;> simp
@[simp] theorem State.cutPreMove_pending (s : State) : s.cutPreMove.pending = s.pending := by
  unfold State.cutPreMove; dsimp only; (repeat' split) <;> simp
@[simp] theorem State.cutPreMove_pcc_pockets (s : State) : s.cutPreMove.pcc.pockets = s.pcc.pockets := by
  unfold State.cutPreMove; dsimp only; (repeat' split) <;> simp
@[simp] theorem State.cutPreMove_pcc_hold (s : State) : s.cutPreMove.pcc.hold = s.pcc.hold := by
  unfold State.cutPreMove; dsimp only; (repeat' split) <;> simp
@[simp] theorem State.cutPreMove_pcc_position (s : State) : s.cutPreMove.pcc.position = s.pcc.position := by
  unfold State.cutPreMove; dsimp only; (repeat' split) <;> simp
@[simp] theorem State.cutPreMove_pcc_lastDir (s : State) : s.cutPreMove.pcc.lastDir = s.pcc.lastDir := by
  unfold State.cutPreMove; dsimp only; (repeat' split) <;> simp
@[simp] theorem State.cutPreMove_pcc_queue (s : State) : s.cutPreMove.pcc.queue = s.pcc.queue := by
  unfold State.cutPreMove; dsimp only; (repeat' split) <;> simp
@[simp] theorem State.cutPreMove_pcc_lastIntake (s : State) : s.cutPreMove.pcc.lastIntake = s.pcc.lastIntake := by
  unfold State.cutPreMove; dsimp only; (repeat' split) <;> simp
@[simp] theorem State.cutPreMove_pcc_stepInterval (s : State) : s.cutPreMove.pcc.stepInterval = s.pcc.stepInterval := by
  unfold State.cutPreMove; dsimp only; (repeat' split) <;> simp
@[simp] theorem State.cutPreMove_pcc_settleInterval (s : State) : s.cutPreMove.pcc.settleInterval = s.pcc.settleInterval := by
  unfold State.cutPreMove; dsimp only; (repeat' split) <;> simp
@[simp] theorem State.cutPreMove_pcc_prePosition (s : State) : s.cutPreMove.pcc.prePosition = s.pcc.prePosition := by
  unfold State.cutPreMove; dsimp only; (repeat' split) <;> simp
@[simp] theorem State.cutPreMove_pcc_weakOption (s : State) : s.cutPreMove.pcc.weakOption = s.pcc.weakOption := by
  unfold State.cutPreMove; dsimp only; (repeat' split) <;> simp

/-! ### enqueue -/
@[simp] theorem State.enqueue_cr (s : State) (r : PosRequest) : (s.enqueue r).cr = s.cr := by simp [State.enqueue]
@[simp] theorem State.enqueue_trt (s : State) (r : PosRequest) : (s.enqueue r).trt = s.trt := by simp [State.enqueue]
@[simp] theorem State.enqueue_wau (s : State) (r : PosRequest) : (s.enqueue r).wau = s.wau := by simp [State.enqueue]
@[simp] theorem State.enqueue_ls (s : State) (r : PosRequest) : (s.enqueue r).ls = s.ls := by simp [State.enqueue]
@[simp] theorem State.enqueue_ss (s : State) (r : PosRequest) : (s.enqueue r).ss = s.ss := by simp [State.enqueue]
@[simp] theorem State.enqueue_pins (s : State) (r : PosRequest) : (s.enqueue r).pins = s.pins := by simp [State.enqueue]
@[simp] theorem State.enqueue_resetHeld (s : State) (r : PosRequest) : (s.enqueue r).resetHeld = s.resetHeld := by simp [State.enqueue]
@[simp] theorem State.enqueue_pending (s : State) (r : PosRequest) : (s.enqueue r).pending = s.pending := by simp [State.enqueue]
@[simp] theorem State.enqueue_pcc_pockets (s : State) (r : PosRequest) : (s.enqueue r).pcc.pockets = s.pcc.pockets := by simp [State.enqueue]
@[simp] theorem State.enqueue_pcc_hold (s : State) (r : PosRequest) : (s.enqueue r).pcc.hold = s.pcc.hold := by simp [State.enqueue]
@[simp] theorem State.enqueue_pcc_position (s : State) (r : PosRequest) : (s.enqueue r).pcc.position = s.pcc.position := by simp [State.enqueue]
@[simp] theorem State.enqueue_pcc_lastIntake (s : State) (r : PosRequest) : (s.enqueue r).pcc.lastIntake = s.pcc.lastIntake := by simp [State.enqueue]
@[simp] theorem State.enqueue_pcc_stepInterval (s : State) (r : PosRequest) : (s.enqueue r).pcc.stepInterval = s.pcc.stepInterval := by simp [State.enqueue]
@[simp] theorem State.enqueue_pcc_settleInterval (s : State) (r : PosRequest) : (s.enqueue r).pcc.settleInterval = s.pcc.settleInterval := by simp [State.enqueue]
@[simp] theorem State.enqueue_pcc_prePosition (s : State) (r : PosRequest) : (s.enqueue r).pcc.prePosition = s.pcc.prePosition := by simp [State.enqueue]
@[simp] theorem State.enqueue_pcc_weakOption (s : State) (r : PosRequest) : (s.enqueue r).pcc.weakOption = s.pcc.weakOption := by simp [State.enqueue]
@[simp] theorem State.enqueue_intake_readings (s : State) (r : PosRequest) : (s.enqueue r).intake.readings = s.intake.readings := by simp [State.enqueue]
@[simp] theorem State.enqueue_intake_drawerTimer (s : State) (r : PosRequest) : (s.enqueue r).intake.drawerTimer = s.intake.drawerTimer := by simp [State.enqueue]
@[simp] theorem State.enqueue_intake_tagWindow (s : State) (r : PosRequest) : (s.enqueue r).intake.tagWindow = s.intake.tagWindow := by simp [State.enqueue]
@[simp] theorem State.enqueue_intake_weighTimer (s : State) (r : PosRequest) : (s.enqueue r).intake.weighTimer = s.intake.weighTimer := by simp [State.enqueue]
@[simp] theorem State.enqueue_intake_reader (s : State) (r : PosRequest) : (s.enqueue r).intake.reader = s.intake.reader := by simp [State.enqueue]
@[simp] theorem State.enqueue_intake_takeUp (s : State) (r : PosRequest) : (s.enqueue r).intake.takeUp = s.intake.takeUp := by simp [State.enqueue]
@[simp] theorem State.enqueue_rc_roster (s : State) (r : PosRequest) : (s.enqueue r).rc.roster = s.rc.roster := by simp [State.enqueue]
@[simp] theorem State.enqueue_rc_wndw (s : State) (r : PosRequest) : (s.enqueue r).rc.wndw = s.rc.wndw := by simp [State.enqueue]
@[simp] theorem State.enqueue_rc_policy (s : State) (r : PosRequest) : (s.enqueue r).rc.policy = s.rc.policy := by simp [State.enqueue]
@[simp] theorem State.enqueue_rc_handoverInterval (s : State) (r : PosRequest) : (s.enqueue r).rc.handoverInterval = s.rc.handoverInterval := by simp [State.enqueue]
@[simp] theorem State.enqueue_rc_pairingInterval (s : State) (r : PosRequest) : (s.enqueue r).rc.pairingInterval = s.rc.pairingInterval := by simp [State.enqueue]
@[simp] theorem State.enqueue_rc_idleInterval (s : State) (r : PosRequest) : (s.enqueue r).rc.idleInterval = s.rc.idleInterval := by simp [State.enqueue]
@[simp] theorem State.enqueue_rc_reader (s : State) (r : PosRequest) : (s.enqueue r).rc.reader = s.rc.reader := by simp [State.enqueue]
@[simp] theorem State.enqueue_rc_lamp (s : State) (r : PosRequest) : (s.enqueue r).rc.lamp = s.rc.lamp := by simp [State.enqueue]
@[simp] theorem State.enqueue_rc_session (s : State) (r : PosRequest) : (s.enqueue r).rc.session = s.rc.session := by simp [State.enqueue]
@[simp] theorem State.enqueue_rc_guardMark (s : State) (r : PosRequest) : (s.enqueue r).rc.guardMark = s.rc.guardMark := by simp [State.enqueue]
@[simp] theorem State.enqueue_rc_handoverTimers (s : State) (r : PosRequest) : (s.enqueue r).rc.handoverTimers = s.rc.handoverTimers := by simp [State.enqueue]

/-! ### arriveAt -/
@[simp] theorem State.arriveAt_cr (s : State) (k : Fin 21) : (s.arriveAt k).cr = s.cr := by simp [State.arriveAt]
@[simp] theorem State.arriveAt_trt (s : State) (k : Fin 21) : (s.arriveAt k).trt = s.trt := by simp [State.arriveAt]
@[simp] theorem State.arriveAt_wau (s : State) (k : Fin 21) : (s.arriveAt k).wau = s.wau := by simp [State.arriveAt]
@[simp] theorem State.arriveAt_ls (s : State) (k : Fin 21) : (s.arriveAt k).ls = s.ls := by simp [State.arriveAt]
@[simp] theorem State.arriveAt_ss (s : State) (k : Fin 21) : (s.arriveAt k).ss = s.ss := by simp [State.arriveAt]
@[simp] theorem State.arriveAt_pins (s : State) (k : Fin 21) : (s.arriveAt k).pins = s.pins := by simp [State.arriveAt]
@[simp] theorem State.arriveAt_resetHeld (s : State) (k : Fin 21) : (s.arriveAt k).resetHeld = s.resetHeld := by simp [State.arriveAt]
@[simp] theorem State.arriveAt_pending (s : State) (k : Fin 21) : (s.arriveAt k).pending = s.pending := by simp [State.arriveAt]
@[simp] theorem State.arriveAt_pcc_pockets (s : State) (k : Fin 21) : (s.arriveAt k).pcc.pockets = s.pcc.pockets := by simp [State.arriveAt]
@[simp] theorem State.arriveAt_pcc_hold (s : State) (k : Fin 21) : (s.arriveAt k).pcc.hold = s.pcc.hold := by simp [State.arriveAt]
@[simp] theorem State.arriveAt_pcc_lastIntake (s : State) (k : Fin 21) : (s.arriveAt k).pcc.lastIntake = s.pcc.lastIntake := by simp [State.arriveAt]
@[simp] theorem State.arriveAt_pcc_stepInterval (s : State) (k : Fin 21) : (s.arriveAt k).pcc.stepInterval = s.pcc.stepInterval := by simp [State.arriveAt]
@[simp] theorem State.arriveAt_pcc_settleInterval (s : State) (k : Fin 21) : (s.arriveAt k).pcc.settleInterval = s.pcc.settleInterval := by simp [State.arriveAt]
@[simp] theorem State.arriveAt_pcc_prePosition (s : State) (k : Fin 21) : (s.arriveAt k).pcc.prePosition = s.pcc.prePosition := by simp [State.arriveAt]
@[simp] theorem State.arriveAt_pcc_weakOption (s : State) (k : Fin 21) : (s.arriveAt k).pcc.weakOption = s.pcc.weakOption := by simp [State.arriveAt]
@[simp] theorem State.arriveAt_intake_readings (s : State) (k : Fin 21) : (s.arriveAt k).intake.readings = s.intake.readings := by simp [State.arriveAt]
@[simp] theorem State.arriveAt_intake_drawerTimer (s : State) (k : Fin 21) : (s.arriveAt k).intake.drawerTimer = s.intake.drawerTimer := by simp [State.arriveAt]
@[simp] theorem State.arriveAt_intake_tagWindow (s : State) (k : Fin 21) : (s.arriveAt k).intake.tagWindow = s.intake.tagWindow := by simp [State.arriveAt]
@[simp] theorem State.arriveAt_intake_weighTimer (s : State) (k : Fin 21) : (s.arriveAt k).intake.weighTimer = s.intake.weighTimer := by simp [State.arriveAt]
@[simp] theorem State.arriveAt_intake_reader (s : State) (k : Fin 21) : (s.arriveAt k).intake.reader = s.intake.reader := by simp [State.arriveAt]
@[simp] theorem State.arriveAt_intake_takeUp (s : State) (k : Fin 21) : (s.arriveAt k).intake.takeUp = s.intake.takeUp := by simp [State.arriveAt]
@[simp] theorem State.arriveAt_rc_roster (s : State) (k : Fin 21) : (s.arriveAt k).rc.roster = s.rc.roster := by simp [State.arriveAt]
@[simp] theorem State.arriveAt_rc_wndw (s : State) (k : Fin 21) : (s.arriveAt k).rc.wndw = s.rc.wndw := by simp [State.arriveAt]
@[simp] theorem State.arriveAt_rc_policy (s : State) (k : Fin 21) : (s.arriveAt k).rc.policy = s.rc.policy := by simp [State.arriveAt]
@[simp] theorem State.arriveAt_rc_handoverInterval (s : State) (k : Fin 21) : (s.arriveAt k).rc.handoverInterval = s.rc.handoverInterval := by simp [State.arriveAt]
@[simp] theorem State.arriveAt_rc_pairingInterval (s : State) (k : Fin 21) : (s.arriveAt k).rc.pairingInterval = s.rc.pairingInterval := by simp [State.arriveAt]
@[simp] theorem State.arriveAt_rc_idleInterval (s : State) (k : Fin 21) : (s.arriveAt k).rc.idleInterval = s.rc.idleInterval := by simp [State.arriveAt]
@[simp] theorem State.arriveAt_rc_reader (s : State) (k : Fin 21) : (s.arriveAt k).rc.reader = s.rc.reader := by simp [State.arriveAt]
@[simp] theorem State.arriveAt_rc_lamp (s : State) (k : Fin 21) : (s.arriveAt k).rc.lamp = s.rc.lamp := by simp [State.arriveAt]
@[simp] theorem State.arriveAt_rc_session (s : State) (k : Fin 21) : (s.arriveAt k).rc.session = s.rc.session := by simp [State.arriveAt]
@[simp] theorem State.arriveAt_rc_guardMark (s : State) (k : Fin 21) : (s.arriveAt k).rc.guardMark = s.rc.guardMark := by simp [State.arriveAt]
@[simp] theorem State.arriveAt_rc_handoverTimers (s : State) (k : Fin 21) : (s.arriveAt k).rc.handoverTimers = s.rc.handoverTimers := by simp [State.arriveAt]

/-! ### prePositionOrServe -/
@[simp] theorem State.prePositionOrServe_cr (s : State) : s.prePositionOrServe.cr = s.cr := by
  unfold State.prePositionOrServe; (repeat' split) <;> simp
@[simp] theorem State.prePositionOrServe_trt (s : State) : s.prePositionOrServe.trt = s.trt := by
  unfold State.prePositionOrServe; (repeat' split) <;> simp
@[simp] theorem State.prePositionOrServe_wau (s : State) : s.prePositionOrServe.wau = s.wau := by
  unfold State.prePositionOrServe; (repeat' split) <;> simp
@[simp] theorem State.prePositionOrServe_ls (s : State) : s.prePositionOrServe.ls = s.ls := by
  unfold State.prePositionOrServe; (repeat' split) <;> simp
@[simp] theorem State.prePositionOrServe_ss (s : State) : s.prePositionOrServe.ss = s.ss := by
  unfold State.prePositionOrServe; (repeat' split) <;> simp
@[simp] theorem State.prePositionOrServe_pins (s : State) : s.prePositionOrServe.pins = s.pins := by
  unfold State.prePositionOrServe; (repeat' split) <;> simp
@[simp] theorem State.prePositionOrServe_resetHeld (s : State) : s.prePositionOrServe.resetHeld = s.resetHeld := by
  unfold State.prePositionOrServe; (repeat' split) <;> simp
@[simp] theorem State.prePositionOrServe_pending (s : State) : s.prePositionOrServe.pending = s.pending := by
  unfold State.prePositionOrServe; (repeat' split) <;> simp
@[simp] theorem State.prePositionOrServe_pcc_pockets (s : State) : s.prePositionOrServe.pcc.pockets = s.pcc.pockets := by
  unfold State.prePositionOrServe; (repeat' split) <;> simp
@[simp] theorem State.prePositionOrServe_pcc_hold (s : State) : s.prePositionOrServe.pcc.hold = s.pcc.hold := by
  unfold State.prePositionOrServe; (repeat' split) <;> simp
@[simp] theorem State.prePositionOrServe_pcc_position (s : State) : s.prePositionOrServe.pcc.position = s.pcc.position := by
  unfold State.prePositionOrServe; (repeat' split) <;> simp
@[simp] theorem State.prePositionOrServe_pcc_lastIntake (s : State) : s.prePositionOrServe.pcc.lastIntake = s.pcc.lastIntake := by
  unfold State.prePositionOrServe; (repeat' split) <;> simp
@[simp] theorem State.prePositionOrServe_pcc_stepInterval (s : State) : s.prePositionOrServe.pcc.stepInterval = s.pcc.stepInterval := by
  unfold State.prePositionOrServe; (repeat' split) <;> simp
@[simp] theorem State.prePositionOrServe_pcc_settleInterval (s : State) : s.prePositionOrServe.pcc.settleInterval = s.pcc.settleInterval := by
  unfold State.prePositionOrServe; (repeat' split) <;> simp
@[simp] theorem State.prePositionOrServe_pcc_prePosition (s : State) : s.prePositionOrServe.pcc.prePosition = s.pcc.prePosition := by
  unfold State.prePositionOrServe; (repeat' split) <;> simp
@[simp] theorem State.prePositionOrServe_pcc_weakOption (s : State) : s.prePositionOrServe.pcc.weakOption = s.pcc.weakOption := by
  unfold State.prePositionOrServe; (repeat' split) <;> simp
@[simp] theorem State.prePositionOrServe_intake_readings (s : State) : s.prePositionOrServe.intake.readings = s.intake.readings := by
  unfold State.prePositionOrServe; (repeat' split) <;> simp
@[simp] theorem State.prePositionOrServe_intake_drawerTimer (s : State) : s.prePositionOrServe.intake.drawerTimer = s.intake.drawerTimer := by
  unfold State.prePositionOrServe; (repeat' split) <;> simp
@[simp] theorem State.prePositionOrServe_intake_tagWindow (s : State) : s.prePositionOrServe.intake.tagWindow = s.intake.tagWindow := by
  unfold State.prePositionOrServe; (repeat' split) <;> simp
@[simp] theorem State.prePositionOrServe_intake_weighTimer (s : State) : s.prePositionOrServe.intake.weighTimer = s.intake.weighTimer := by
  unfold State.prePositionOrServe; (repeat' split) <;> simp
@[simp] theorem State.prePositionOrServe_intake_reader (s : State) : s.prePositionOrServe.intake.reader = s.intake.reader := by
  unfold State.prePositionOrServe; (repeat' split) <;> simp
@[simp] theorem State.prePositionOrServe_intake_takeUp (s : State) : s.prePositionOrServe.intake.takeUp = s.intake.takeUp := by
  unfold State.prePositionOrServe; (repeat' split) <;> simp
@[simp] theorem State.prePositionOrServe_rc_roster (s : State) : s.prePositionOrServe.rc.roster = s.rc.roster := by
  unfold State.prePositionOrServe; (repeat' split) <;> simp
@[simp] theorem State.prePositionOrServe_rc_wndw (s : State) : s.prePositionOrServe.rc.wndw = s.rc.wndw := by
  unfold State.prePositionOrServe; (repeat' split) <;> simp
@[simp] theorem State.prePositionOrServe_rc_policy (s : State) : s.prePositionOrServe.rc.policy = s.rc.policy := by
  unfold State.prePositionOrServe; (repeat' split) <;> simp
@[simp] theorem State.prePositionOrServe_rc_handoverInterval (s : State) : s.prePositionOrServe.rc.handoverInterval = s.rc.handoverInterval := by
  unfold State.prePositionOrServe; (repeat' split) <;> simp
@[simp] theorem State.prePositionOrServe_rc_pairingInterval (s : State) : s.prePositionOrServe.rc.pairingInterval = s.rc.pairingInterval := by
  unfold State.prePositionOrServe; (repeat' split) <;> simp
@[simp] theorem State.prePositionOrServe_rc_idleInterval (s : State) : s.prePositionOrServe.rc.idleInterval = s.rc.idleInterval := by
  unfold State.prePositionOrServe; (repeat' split) <;> simp
@[simp] theorem State.prePositionOrServe_rc_reader (s : State) : s.prePositionOrServe.rc.reader = s.rc.reader := by
  unfold State.prePositionOrServe; (repeat' split) <;> simp
@[simp] theorem State.prePositionOrServe_rc_lamp (s : State) : s.prePositionOrServe.rc.lamp = s.rc.lamp := by
  unfold State.prePositionOrServe; (repeat' split) <;> simp
@[simp] theorem State.prePositionOrServe_rc_session (s : State) : s.prePositionOrServe.rc.session = s.rc.session := by
  unfold State.prePositionOrServe; (repeat' split) <;> simp
@[simp] theorem State.prePositionOrServe_rc_guardMark (s : State) : s.prePositionOrServe.rc.guardMark = s.rc.guardMark := by
  unfold State.prePositionOrServe; (repeat' split) <;> simp
@[simp] theorem State.prePositionOrServe_rc_handoverTimers (s : State) : s.prePositionOrServe.rc.handoverTimers = s.rc.handoverTimers := by
  unfold State.prePositionOrServe; (repeat' split) <;> simp

/-! ### jam -/
@[simp] theorem State.jam_trt (s : State) : s.jam.trt = s.trt := by simp [State.jam]
@[simp] theorem State.jam_wau (s : State) : s.jam.wau = s.wau := by simp [State.jam]
@[simp] theorem State.jam_rc (s : State) : s.jam.rc = s.rc := by simp [State.jam]
@[simp] theorem State.jam_ss (s : State) : s.jam.ss = s.ss := by simp [State.jam]
@[simp] theorem State.jam_pins (s : State) : s.jam.pins = s.pins := by simp [State.jam]
@[simp] theorem State.jam_resetHeld (s : State) : s.jam.resetHeld = s.resetHeld := by simp [State.jam]
@[simp] theorem State.jam_pending (s : State) : s.jam.pending = s.pending := by simp [State.jam]
@[simp] theorem State.jam_cr_tagIndex (s : State) : s.jam.cr.tagIndex = s.cr.tagIndex := by simp [State.jam]
@[simp] theorem State.jam_cr_receiptCounter (s : State) : s.jam.cr.receiptCounter = s.cr.receiptCounter := by simp [State.jam]
@[simp] theorem State.jam_cr_lists (s : State) : s.jam.cr.lists = s.cr.lists := by simp [State.jam]
@[simp] theorem State.jam_cr_night (s : State) : s.jam.cr.night = s.cr.night := by simp [State.jam]
@[simp] theorem State.jam_cr_totals (s : State) : s.jam.cr.totals = s.cr.totals := by simp [State.jam]
@[simp] theorem State.jam_cr_lossPending (s : State) : s.jam.cr.lossPending = s.cr.lossPending := by simp [State.jam]
@[simp] theorem State.jam_cr_storeValid (s : State) : s.jam.cr.storeValid = s.cr.storeValid := by simp [State.jam]
@[simp] theorem State.jam_cr_graceInterval (s : State) : s.jam.cr.graceInterval = s.cr.graceInterval := by simp [State.jam]
@[simp] theorem State.jam_pcc_pockets (s : State) : s.jam.pcc.pockets = s.pcc.pockets := by simp [State.jam]
@[simp] theorem State.jam_pcc_drum (s : State) : s.jam.pcc.drum = s.pcc.drum := by simp [State.jam]
@[simp] theorem State.jam_pcc_position (s : State) : s.jam.pcc.position = s.pcc.position := by simp [State.jam]
@[simp] theorem State.jam_pcc_lastDir (s : State) : s.jam.pcc.lastDir = s.pcc.lastDir := by simp [State.jam]
@[simp] theorem State.jam_pcc_lastIntake (s : State) : s.jam.pcc.lastIntake = s.pcc.lastIntake := by simp [State.jam]
@[simp] theorem State.jam_pcc_stepInterval (s : State) : s.jam.pcc.stepInterval = s.pcc.stepInterval := by simp [State.jam]
@[simp] theorem State.jam_pcc_settleInterval (s : State) : s.jam.pcc.settleInterval = s.pcc.settleInterval := by simp [State.jam]
@[simp] theorem State.jam_pcc_prePosition (s : State) : s.jam.pcc.prePosition = s.pcc.prePosition := by simp [State.jam]
@[simp] theorem State.jam_pcc_weakOption (s : State) : s.jam.pcc.weakOption = s.pcc.weakOption := by simp [State.jam]
@[simp] theorem State.jam_intake_readings (s : State) : s.jam.intake.readings = s.intake.readings := by simp [State.jam]
@[simp] theorem State.jam_intake_reader (s : State) : s.jam.intake.reader = s.intake.reader := by simp [State.jam]
@[simp] theorem State.jam_intake_takeUp (s : State) : s.jam.intake.takeUp = s.intake.takeUp := by simp [State.jam]
@[simp] theorem State.jam_ls_branch (s : State) : s.jam.ls.branch = s.ls.branch := by simp [State.jam]
@[simp] theorem State.jam_ls_panel (s : State) : s.jam.ls.panel = s.ls.panel := by simp [State.jam]
@[simp] theorem State.jam_ls_enables (s : State) : s.jam.ls.enables = s.ls.enables := by simp [State.jam]
@[simp] theorem State.jam_ls_clock (s : State) : s.jam.ls.clock = s.ls.clock := by simp [State.jam]

/-! ### enterJammed -/
@[simp] theorem State.enterJammed_trt (s : State) : s.enterJammed.trt = s.trt := by simp [State.enterJammed]
@[simp] theorem State.enterJammed_wau (s : State) : s.enterJammed.wau = s.wau := by simp [State.enterJammed]
@[simp] theorem State.enterJammed_ss (s : State) : s.enterJammed.ss = s.ss := by simp [State.enterJammed]
@[simp] theorem State.enterJammed_pins (s : State) : s.enterJammed.pins = s.pins := by simp [State.enterJammed]
@[simp] theorem State.enterJammed_resetHeld (s : State) : s.enterJammed.resetHeld = s.resetHeld := by simp [State.enterJammed]
@[simp] theorem State.enterJammed_pending (s : State) : s.enterJammed.pending = s.pending := by simp [State.enterJammed]
@[simp] theorem State.enterJammed_cr_tagIndex (s : State) : s.enterJammed.cr.tagIndex = s.cr.tagIndex := by simp [State.enterJammed]
@[simp] theorem State.enterJammed_cr_receiptCounter (s : State) : s.enterJammed.cr.receiptCounter = s.cr.receiptCounter := by simp [State.enterJammed]
@[simp] theorem State.enterJammed_cr_lists (s : State) : s.enterJammed.cr.lists = s.cr.lists := by simp [State.enterJammed]
@[simp] theorem State.enterJammed_cr_night (s : State) : s.enterJammed.cr.night = s.cr.night := by simp [State.enterJammed]
@[simp] theorem State.enterJammed_cr_totals (s : State) : s.enterJammed.cr.totals = s.cr.totals := by simp [State.enterJammed]
@[simp] theorem State.enterJammed_cr_lossPending (s : State) : s.enterJammed.cr.lossPending = s.cr.lossPending := by simp [State.enterJammed]
@[simp] theorem State.enterJammed_cr_storeValid (s : State) : s.enterJammed.cr.storeValid = s.cr.storeValid := by simp [State.enterJammed]
@[simp] theorem State.enterJammed_cr_graceInterval (s : State) : s.enterJammed.cr.graceInterval = s.cr.graceInterval := by simp [State.enterJammed]
@[simp] theorem State.enterJammed_pcc_pockets (s : State) : s.enterJammed.pcc.pockets = s.pcc.pockets := by simp [State.enterJammed]
@[simp] theorem State.enterJammed_pcc_position (s : State) : s.enterJammed.pcc.position = s.pcc.position := by simp [State.enterJammed]
@[simp] theorem State.enterJammed_pcc_lastIntake (s : State) : s.enterJammed.pcc.lastIntake = s.pcc.lastIntake := by simp [State.enterJammed]
@[simp] theorem State.enterJammed_pcc_stepInterval (s : State) : s.enterJammed.pcc.stepInterval = s.pcc.stepInterval := by simp [State.enterJammed]
@[simp] theorem State.enterJammed_pcc_settleInterval (s : State) : s.enterJammed.pcc.settleInterval = s.pcc.settleInterval := by simp [State.enterJammed]
@[simp] theorem State.enterJammed_pcc_prePosition (s : State) : s.enterJammed.pcc.prePosition = s.pcc.prePosition := by simp [State.enterJammed]
@[simp] theorem State.enterJammed_pcc_weakOption (s : State) : s.enterJammed.pcc.weakOption = s.pcc.weakOption := by simp [State.enterJammed]
@[simp] theorem State.enterJammed_intake_readings (s : State) : s.enterJammed.intake.readings = s.intake.readings := by simp [State.enterJammed]
@[simp] theorem State.enterJammed_intake_reader (s : State) : s.enterJammed.intake.reader = s.intake.reader := by simp [State.enterJammed]
@[simp] theorem State.enterJammed_intake_takeUp (s : State) : s.enterJammed.intake.takeUp = s.intake.takeUp := by simp [State.enterJammed]
@[simp] theorem State.enterJammed_ls_branch (s : State) : s.enterJammed.ls.branch = s.ls.branch := by simp [State.enterJammed]
@[simp] theorem State.enterJammed_ls_panel (s : State) : s.enterJammed.ls.panel = s.ls.panel := by simp [State.enterJammed]
@[simp] theorem State.enterJammed_ls_enables (s : State) : s.enterJammed.ls.enables = s.ls.enables := by simp [State.enterJammed]
@[simp] theorem State.enterJammed_ls_clock (s : State) : s.enterJammed.ls.clock = s.ls.clock := by simp [State.enterJammed]
@[simp] theorem State.enterJammed_rc_roster (s : State) : s.enterJammed.rc.roster = s.rc.roster := by simp [State.enterJammed]
@[simp] theorem State.enterJammed_rc_wndw (s : State) : s.enterJammed.rc.wndw = s.rc.wndw := by simp [State.enterJammed]
@[simp] theorem State.enterJammed_rc_policy (s : State) : s.enterJammed.rc.policy = s.rc.policy := by simp [State.enterJammed]
@[simp] theorem State.enterJammed_rc_handoverInterval (s : State) : s.enterJammed.rc.handoverInterval = s.rc.handoverInterval := by simp [State.enterJammed]
@[simp] theorem State.enterJammed_rc_pairingInterval (s : State) : s.enterJammed.rc.pairingInterval = s.rc.pairingInterval := by simp [State.enterJammed]
@[simp] theorem State.enterJammed_rc_idleInterval (s : State) : s.enterJammed.rc.idleInterval = s.rc.idleInterval := by simp [State.enterJammed]
@[simp] theorem State.enterJammed_rc_reader (s : State) : s.enterJammed.rc.reader = s.rc.reader := by simp [State.enterJammed]
@[simp] theorem State.enterJammed_rc_lamp (s : State) : s.enterJammed.rc.lamp = s.rc.lamp := by simp [State.enterJammed]
@[simp] theorem State.enterJammed_rc_session (s : State) : s.enterJammed.rc.session = s.rc.session := by simp [State.enterJammed]
@[simp] theorem State.enterJammed_rc_guardMark (s : State) : s.enterJammed.rc.guardMark = s.rc.guardMark := by simp [State.enterJammed]
@[simp] theorem State.enterJammed_rc_handoverTimers (s : State) : s.enterJammed.rc.handoverTimers = s.rc.handoverTimers := by simp [State.enterJammed]

/-! ### carouselFault -/
@[simp] theorem State.carouselFault_trt (s : State) : s.carouselFault.trt = s.trt := by
  unfold State.carouselFault; dsimp only; (repeat' split) <;> simp
@[simp] theorem State.carouselFault_wau (s : State) : s.carouselFault.wau = s.wau := by
  unfold State.carouselFault; dsimp only; (repeat' split) <;> simp
@[simp] theorem State.carouselFault_ss (s : State) : s.carouselFault.ss = s.ss := by
  unfold State.carouselFault; dsimp only; (repeat' split) <;> simp
@[simp] theorem State.carouselFault_pins (s : State) : s.carouselFault.pins = s.pins := by
  unfold State.carouselFault; dsimp only; (repeat' split) <;> simp
@[simp] theorem State.carouselFault_resetHeld (s : State) : s.carouselFault.resetHeld = s.resetHeld := by
  unfold State.carouselFault; dsimp only; (repeat' split) <;> simp
@[simp] theorem State.carouselFault_pending (s : State) : s.carouselFault.pending = s.pending := by
  unfold State.carouselFault; dsimp only; (repeat' split) <;> simp
@[simp] theorem State.carouselFault_cr_tagIndex (s : State) : s.carouselFault.cr.tagIndex = s.cr.tagIndex := by
  unfold State.carouselFault; dsimp only; (repeat' split) <;> simp
@[simp] theorem State.carouselFault_cr_receiptCounter (s : State) : s.carouselFault.cr.receiptCounter = s.cr.receiptCounter := by
  unfold State.carouselFault; dsimp only; (repeat' split) <;> simp
@[simp] theorem State.carouselFault_cr_lists (s : State) : s.carouselFault.cr.lists = s.cr.lists := by
  unfold State.carouselFault; dsimp only; (repeat' split) <;> simp
@[simp] theorem State.carouselFault_cr_night (s : State) : s.carouselFault.cr.night = s.cr.night := by
  unfold State.carouselFault; dsimp only; (repeat' split) <;> simp
@[simp] theorem State.carouselFault_cr_totals (s : State) : s.carouselFault.cr.totals = s.cr.totals := by
  unfold State.carouselFault; dsimp only; (repeat' split) <;> simp
@[simp] theorem State.carouselFault_cr_lossPending (s : State) : s.carouselFault.cr.lossPending = s.cr.lossPending := by
  unfold State.carouselFault; dsimp only; (repeat' split) <;> simp
@[simp] theorem State.carouselFault_cr_storeValid (s : State) : s.carouselFault.cr.storeValid = s.cr.storeValid := by
  unfold State.carouselFault; dsimp only; (repeat' split) <;> simp
@[simp] theorem State.carouselFault_cr_graceInterval (s : State) : s.carouselFault.cr.graceInterval = s.cr.graceInterval := by
  unfold State.carouselFault; dsimp only; (repeat' split) <;> simp
@[simp] theorem State.carouselFault_pcc_pockets (s : State) : s.carouselFault.pcc.pockets = s.pcc.pockets := by
  unfold State.carouselFault; dsimp only; (repeat' split) <;> simp
@[simp] theorem State.carouselFault_pcc_lastIntake (s : State) : s.carouselFault.pcc.lastIntake = s.pcc.lastIntake := by
  unfold State.carouselFault; dsimp only; (repeat' split) <;> simp
@[simp] theorem State.carouselFault_pcc_stepInterval (s : State) : s.carouselFault.pcc.stepInterval = s.pcc.stepInterval := by
  unfold State.carouselFault; dsimp only; (repeat' split) <;> simp
@[simp] theorem State.carouselFault_pcc_settleInterval (s : State) : s.carouselFault.pcc.settleInterval = s.pcc.settleInterval := by
  unfold State.carouselFault; dsimp only; (repeat' split) <;> simp
@[simp] theorem State.carouselFault_pcc_prePosition (s : State) : s.carouselFault.pcc.prePosition = s.pcc.prePosition := by
  unfold State.carouselFault; dsimp only; (repeat' split) <;> simp
@[simp] theorem State.carouselFault_pcc_weakOption (s : State) : s.carouselFault.pcc.weakOption = s.pcc.weakOption := by
  unfold State.carouselFault; dsimp only; (repeat' split) <;> simp
@[simp] theorem State.carouselFault_ls_branch (s : State) : s.carouselFault.ls.branch = s.ls.branch := by
  unfold State.carouselFault; dsimp only; (repeat' split) <;> simp
@[simp] theorem State.carouselFault_ls_panel (s : State) : s.carouselFault.ls.panel = s.ls.panel := by
  unfold State.carouselFault; dsimp only; (repeat' split) <;> simp
@[simp] theorem State.carouselFault_ls_enables (s : State) : s.carouselFault.ls.enables = s.ls.enables := by
  unfold State.carouselFault; dsimp only; (repeat' split) <;> simp
@[simp] theorem State.carouselFault_ls_clock (s : State) : s.carouselFault.ls.clock = s.ls.clock := by
  unfold State.carouselFault; dsimp only; (repeat' split) <;> simp
@[simp] theorem State.carouselFault_rc_roster (s : State) : s.carouselFault.rc.roster = s.rc.roster := by
  unfold State.carouselFault; dsimp only; (repeat' split) <;> simp
@[simp] theorem State.carouselFault_rc_wndw (s : State) : s.carouselFault.rc.wndw = s.rc.wndw := by
  unfold State.carouselFault; dsimp only; (repeat' split) <;> simp
@[simp] theorem State.carouselFault_rc_policy (s : State) : s.carouselFault.rc.policy = s.rc.policy := by
  unfold State.carouselFault; dsimp only; (repeat' split) <;> simp
@[simp] theorem State.carouselFault_rc_handoverInterval (s : State) : s.carouselFault.rc.handoverInterval = s.rc.handoverInterval := by
  unfold State.carouselFault; dsimp only; (repeat' split) <;> simp
@[simp] theorem State.carouselFault_rc_pairingInterval (s : State) : s.carouselFault.rc.pairingInterval = s.rc.pairingInterval := by
  unfold State.carouselFault; dsimp only; (repeat' split) <;> simp
@[simp] theorem State.carouselFault_rc_idleInterval (s : State) : s.carouselFault.rc.idleInterval = s.rc.idleInterval := by
  unfold State.carouselFault; dsimp only; (repeat' split) <;> simp
@[simp] theorem State.carouselFault_rc_reader (s : State) : s.carouselFault.rc.reader = s.rc.reader := by
  unfold State.carouselFault; dsimp only; (repeat' split) <;> simp
@[simp] theorem State.carouselFault_rc_lamp (s : State) : s.carouselFault.rc.lamp = s.rc.lamp := by
  unfold State.carouselFault; dsimp only; (repeat' split) <;> simp
@[simp] theorem State.carouselFault_rc_session (s : State) : s.carouselFault.rc.session = s.rc.session := by
  unfold State.carouselFault; dsimp only; (repeat' split) <;> simp
@[simp] theorem State.carouselFault_rc_handoverTimers (s : State) : s.carouselFault.rc.handoverTimers = s.rc.handoverTimers := by
  unfold State.carouselFault; dsimp only; (repeat' split) <;> simp

/-! ### homed -/
@[simp] theorem State.homed_cr (s : State) : s.homed.cr = s.cr := by simp [State.homed]
@[simp] theorem State.homed_trt (s : State) : s.homed.trt = s.trt := by simp [State.homed]
@[simp] theorem State.homed_wau (s : State) : s.homed.wau = s.wau := by simp [State.homed]
@[simp] theorem State.homed_ss (s : State) : s.homed.ss = s.ss := by simp [State.homed]
@[simp] theorem State.homed_pins (s : State) : s.homed.pins = s.pins := by simp [State.homed]
@[simp] theorem State.homed_resetHeld (s : State) : s.homed.resetHeld = s.resetHeld := by simp [State.homed]
@[simp] theorem State.homed_pending (s : State) : s.homed.pending = s.pending := by simp [State.homed]
@[simp] theorem State.homed_intake_weighTimer (s : State) : s.homed.intake.weighTimer = s.intake.weighTimer := by simp [State.homed]
@[simp] theorem State.homed_pcc_pockets (s : State) : s.homed.pcc.pockets = s.pcc.pockets := by simp [State.homed]
@[simp] theorem State.homed_pcc_lastIntake (s : State) : s.homed.pcc.lastIntake = s.pcc.lastIntake := by simp [State.homed]
@[simp] theorem State.homed_pcc_stepInterval (s : State) : s.homed.pcc.stepInterval = s.pcc.stepInterval := by simp [State.homed]
@[simp] theorem State.homed_pcc_settleInterval (s : State) : s.homed.pcc.settleInterval = s.pcc.settleInterval := by simp [State.homed]
@[simp] theorem State.homed_pcc_prePosition (s : State) : s.homed.pcc.prePosition = s.pcc.prePosition := by simp [State.homed]
@[simp] theorem State.homed_pcc_weakOption (s : State) : s.homed.pcc.weakOption = s.pcc.weakOption := by simp [State.homed]
@[simp] theorem State.homed_ls_branch (s : State) : s.homed.ls.branch = s.ls.branch := by simp [State.homed]
@[simp] theorem State.homed_ls_panel (s : State) : s.homed.ls.panel = s.ls.panel := by simp [State.homed]
@[simp] theorem State.homed_ls_enables (s : State) : s.homed.ls.enables = s.ls.enables := by simp [State.homed]
@[simp] theorem State.homed_ls_clock (s : State) : s.homed.ls.clock = s.ls.clock := by simp [State.homed]
@[simp] theorem State.homed_rc_roster (s : State) : s.homed.rc.roster = s.rc.roster := by simp [State.homed]
@[simp] theorem State.homed_rc_wndw (s : State) : s.homed.rc.wndw = s.rc.wndw := by simp [State.homed]
@[simp] theorem State.homed_rc_policy (s : State) : s.homed.rc.policy = s.rc.policy := by simp [State.homed]
@[simp] theorem State.homed_rc_handoverInterval (s : State) : s.homed.rc.handoverInterval = s.rc.handoverInterval := by simp [State.homed]
@[simp] theorem State.homed_rc_pairingInterval (s : State) : s.homed.rc.pairingInterval = s.rc.pairingInterval := by simp [State.homed]
@[simp] theorem State.homed_rc_idleInterval (s : State) : s.homed.rc.idleInterval = s.rc.idleInterval := by simp [State.homed]
@[simp] theorem State.homed_rc_reader (s : State) : s.homed.rc.reader = s.rc.reader := by simp [State.homed]
@[simp] theorem State.homed_rc_lamp (s : State) : s.homed.rc.lamp = s.rc.lamp := by simp [State.homed]
@[simp] theorem State.homed_rc_session (s : State) : s.homed.rc.session = s.rc.session := by simp [State.homed]
@[simp] theorem State.homed_rc_guardMark (s : State) : s.homed.rc.guardMark = s.rc.guardMark := by simp [State.homed]
@[simp] theorem State.homed_rc_handoverTimers (s : State) : s.homed.rc.handoverTimers = s.rc.handoverTimers := by simp [State.homed]

/-! ### beginSearch -/
@[simp] theorem State.beginSearch_cr (s : State) : s.beginSearch.cr = s.cr := by
  unfold State.beginSearch; dsimp only; (repeat' split) <;> simp
@[simp] theorem State.beginSearch_trt (s : State) : s.beginSearch.trt = s.trt := by
  unfold State.beginSearch; dsimp only; (repeat' split) <;> simp
@[simp] theorem State.beginSearch_wau (s : State) : s.beginSearch.wau = s.wau := by
  unfold State.beginSearch; dsimp only; (repeat' split) <;> simp
@[simp] theorem State.beginSearch_ss (s : State) : s.beginSearch.ss = s.ss := by
  unfold State.beginSearch; dsimp only; (repeat' split) <;> simp
@[simp] theorem State.beginSearch_pins (s : State) : s.beginSearch.pins = s.pins := by
  unfold State.beginSearch; dsimp only; (repeat' split) <;> simp
@[simp] theorem State.beginSearch_resetHeld (s : State) : s.beginSearch.resetHeld = s.resetHeld := by
  unfold State.beginSearch; dsimp only; (repeat' split) <;> simp
@[simp] theorem State.beginSearch_pending (s : State) : s.beginSearch.pending = s.pending := by
  unfold State.beginSearch; dsimp only; (repeat' split) <;> simp
@[simp] theorem State.beginSearch_intake_weighTimer (s : State) : s.beginSearch.intake.weighTimer = s.intake.weighTimer := by
  unfold State.beginSearch; dsimp only; (repeat' split) <;> simp
@[simp] theorem State.beginSearch_pcc_pockets (s : State) : s.beginSearch.pcc.pockets = s.pcc.pockets := by
  unfold State.beginSearch; dsimp only; (repeat' split) <;> simp
@[simp] theorem State.beginSearch_pcc_lastIntake (s : State) : s.beginSearch.pcc.lastIntake = s.pcc.lastIntake := by
  unfold State.beginSearch; dsimp only; (repeat' split) <;> simp
@[simp] theorem State.beginSearch_pcc_stepInterval (s : State) : s.beginSearch.pcc.stepInterval = s.pcc.stepInterval := by
  unfold State.beginSearch; dsimp only; (repeat' split) <;> simp
@[simp] theorem State.beginSearch_pcc_settleInterval (s : State) : s.beginSearch.pcc.settleInterval = s.pcc.settleInterval := by
  unfold State.beginSearch; dsimp only; (repeat' split) <;> simp
@[simp] theorem State.beginSearch_pcc_prePosition (s : State) : s.beginSearch.pcc.prePosition = s.pcc.prePosition := by
  unfold State.beginSearch; dsimp only; (repeat' split) <;> simp
@[simp] theorem State.beginSearch_pcc_weakOption (s : State) : s.beginSearch.pcc.weakOption = s.pcc.weakOption := by
  unfold State.beginSearch; dsimp only; (repeat' split) <;> simp
@[simp] theorem State.beginSearch_ls_branch (s : State) : s.beginSearch.ls.branch = s.ls.branch := by
  unfold State.beginSearch; dsimp only; (repeat' split) <;> simp
@[simp] theorem State.beginSearch_ls_panel (s : State) : s.beginSearch.ls.panel = s.ls.panel := by
  unfold State.beginSearch; dsimp only; (repeat' split) <;> simp
@[simp] theorem State.beginSearch_ls_enables (s : State) : s.beginSearch.ls.enables = s.ls.enables := by
  unfold State.beginSearch; dsimp only; (repeat' split) <;> simp
@[simp] theorem State.beginSearch_ls_clock (s : State) : s.beginSearch.ls.clock = s.ls.clock := by
  unfold State.beginSearch; dsimp only; (repeat' split) <;> simp
@[simp] theorem State.beginSearch_rc_roster (s : State) : s.beginSearch.rc.roster = s.rc.roster := by
  unfold State.beginSearch; dsimp only; (repeat' split) <;> simp
@[simp] theorem State.beginSearch_rc_wndw (s : State) : s.beginSearch.rc.wndw = s.rc.wndw := by
  unfold State.beginSearch; dsimp only; (repeat' split) <;> simp
@[simp] theorem State.beginSearch_rc_policy (s : State) : s.beginSearch.rc.policy = s.rc.policy := by
  unfold State.beginSearch; dsimp only; (repeat' split) <;> simp
@[simp] theorem State.beginSearch_rc_handoverInterval (s : State) : s.beginSearch.rc.handoverInterval = s.rc.handoverInterval := by
  unfold State.beginSearch; dsimp only; (repeat' split) <;> simp
@[simp] theorem State.beginSearch_rc_pairingInterval (s : State) : s.beginSearch.rc.pairingInterval = s.rc.pairingInterval := by
  unfold State.beginSearch; dsimp only; (repeat' split) <;> simp
@[simp] theorem State.beginSearch_rc_idleInterval (s : State) : s.beginSearch.rc.idleInterval = s.rc.idleInterval := by
  unfold State.beginSearch; dsimp only; (repeat' split) <;> simp
@[simp] theorem State.beginSearch_rc_reader (s : State) : s.beginSearch.rc.reader = s.rc.reader := by
  unfold State.beginSearch; dsimp only; (repeat' split) <;> simp
@[simp] theorem State.beginSearch_rc_lamp (s : State) : s.beginSearch.rc.lamp = s.rc.lamp := by
  unfold State.beginSearch; dsimp only; (repeat' split) <;> simp
@[simp] theorem State.beginSearch_rc_session (s : State) : s.beginSearch.rc.session = s.rc.session := by
  unfold State.beginSearch; dsimp only; (repeat' split) <;> simp
@[simp] theorem State.beginSearch_rc_guardMark (s : State) : s.beginSearch.rc.guardMark = s.rc.guardMark := by
  unfold State.beginSearch; dsimp only; (repeat' split) <;> simp
@[simp] theorem State.beginSearch_rc_handoverTimers (s : State) : s.beginSearch.rc.handoverTimers = s.rc.handoverTimers := by
  unfold State.beginSearch; dsimp only; (repeat' split) <;> simp

/-! ### interlockSecured -/
@[simp] theorem State.interlockSecured_cr (s : State) : s.interlockSecured.cr = s.cr := by
  unfold State.interlockSecured; (repeat' split) <;> simp
@[simp] theorem State.interlockSecured_trt (s : State) : s.interlockSecured.trt = s.trt := by
  unfold State.interlockSecured; (repeat' split) <;> simp
@[simp] theorem State.interlockSecured_wau (s : State) : s.interlockSecured.wau = s.wau := by
  unfold State.interlockSecured; (repeat' split) <;> simp
@[simp] theorem State.interlockSecured_ss (s : State) : s.interlockSecured.ss = s.ss := by
  unfold State.interlockSecured; (repeat' split) <;> simp
@[simp] theorem State.interlockSecured_pins (s : State) : s.interlockSecured.pins = s.pins := by
  unfold State.interlockSecured; (repeat' split) <;> simp
@[simp] theorem State.interlockSecured_resetHeld (s : State) : s.interlockSecured.resetHeld = s.resetHeld := by
  unfold State.interlockSecured; (repeat' split) <;> simp
@[simp] theorem State.interlockSecured_pending (s : State) : s.interlockSecured.pending = s.pending := by
  unfold State.interlockSecured; (repeat' split) <;> simp
@[simp] theorem State.interlockSecured_intake_weighTimer (s : State) : s.interlockSecured.intake.weighTimer = s.intake.weighTimer := by
  unfold State.interlockSecured; (repeat' split) <;> simp
@[simp] theorem State.interlockSecured_pcc_pockets (s : State) : s.interlockSecured.pcc.pockets = s.pcc.pockets := by
  unfold State.interlockSecured; (repeat' split) <;> simp
@[simp] theorem State.interlockSecured_pcc_lastIntake (s : State) : s.interlockSecured.pcc.lastIntake = s.pcc.lastIntake := by
  unfold State.interlockSecured; (repeat' split) <;> simp
@[simp] theorem State.interlockSecured_pcc_stepInterval (s : State) : s.interlockSecured.pcc.stepInterval = s.pcc.stepInterval := by
  unfold State.interlockSecured; (repeat' split) <;> simp
@[simp] theorem State.interlockSecured_pcc_settleInterval (s : State) : s.interlockSecured.pcc.settleInterval = s.pcc.settleInterval := by
  unfold State.interlockSecured; (repeat' split) <;> simp
@[simp] theorem State.interlockSecured_pcc_prePosition (s : State) : s.interlockSecured.pcc.prePosition = s.pcc.prePosition := by
  unfold State.interlockSecured; (repeat' split) <;> simp
@[simp] theorem State.interlockSecured_pcc_weakOption (s : State) : s.interlockSecured.pcc.weakOption = s.pcc.weakOption := by
  unfold State.interlockSecured; (repeat' split) <;> simp
@[simp] theorem State.interlockSecured_ls_branch (s : State) : s.interlockSecured.ls.branch = s.ls.branch := by
  unfold State.interlockSecured; (repeat' split) <;> simp
@[simp] theorem State.interlockSecured_ls_panel (s : State) : s.interlockSecured.ls.panel = s.ls.panel := by
  unfold State.interlockSecured; (repeat' split) <;> simp
@[simp] theorem State.interlockSecured_ls_enables (s : State) : s.interlockSecured.ls.enables = s.ls.enables := by
  unfold State.interlockSecured; (repeat' split) <;> simp
@[simp] theorem State.interlockSecured_ls_clock (s : State) : s.interlockSecured.ls.clock = s.ls.clock := by
  unfold State.interlockSecured; (repeat' split) <;> simp
@[simp] theorem State.interlockSecured_rc_roster (s : State) : s.interlockSecured.rc.roster = s.rc.roster := by
  unfold State.interlockSecured; (repeat' split) <;> simp
@[simp] theorem State.interlockSecured_rc_wndw (s : State) : s.interlockSecured.rc.wndw = s.rc.wndw := by
  unfold State.interlockSecured; (repeat' split) <;> simp
@[simp] theorem State.interlockSecured_rc_policy (s : State) : s.interlockSecured.rc.policy = s.rc.policy := by
  unfold State.interlockSecured; (repeat' split) <;> simp
@[simp] theorem State.interlockSecured_rc_handoverInterval (s : State) : s.interlockSecured.rc.handoverInterval = s.rc.handoverInterval := by
  unfold State.interlockSecured; (repeat' split) <;> simp
@[simp] theorem State.interlockSecured_rc_pairingInterval (s : State) : s.interlockSecured.rc.pairingInterval = s.rc.pairingInterval := by
  unfold State.interlockSecured; (repeat' split) <;> simp
@[simp] theorem State.interlockSecured_rc_idleInterval (s : State) : s.interlockSecured.rc.idleInterval = s.rc.idleInterval := by
  unfold State.interlockSecured; (repeat' split) <;> simp
@[simp] theorem State.interlockSecured_rc_reader (s : State) : s.interlockSecured.rc.reader = s.rc.reader := by
  unfold State.interlockSecured; (repeat' split) <;> simp
@[simp] theorem State.interlockSecured_rc_lamp (s : State) : s.interlockSecured.rc.lamp = s.rc.lamp := by
  unfold State.interlockSecured; (repeat' split) <;> simp
@[simp] theorem State.interlockSecured_rc_session (s : State) : s.interlockSecured.rc.session = s.rc.session := by
  unfold State.interlockSecured; (repeat' split) <;> simp
@[simp] theorem State.interlockSecured_rc_guardMark (s : State) : s.interlockSecured.rc.guardMark = s.rc.guardMark := by
  unfold State.interlockSecured; (repeat' split) <;> simp
@[simp] theorem State.interlockSecured_rc_handoverTimers (s : State) : s.interlockSecured.rc.handoverTimers = s.rc.handoverTimers := by
  unfold State.interlockSecured; (repeat' split) <;> simp

/-! ### leaveOpen -/
@[simp] theorem State.leaveOpen_cr (s : State) : s.leaveOpen.cr = s.cr := by simp [State.leaveOpen]
@[simp] theorem State.leaveOpen_trt (s : State) : s.leaveOpen.trt = s.trt := by simp [State.leaveOpen]
@[simp] theorem State.leaveOpen_wau (s : State) : s.leaveOpen.wau = s.wau := by simp [State.leaveOpen]
@[simp] theorem State.leaveOpen_ls (s : State) : s.leaveOpen.ls = s.ls := by simp [State.leaveOpen]
@[simp] theorem State.leaveOpen_ss (s : State) : s.leaveOpen.ss = s.ss := by simp [State.leaveOpen]
@[simp] theorem State.leaveOpen_pins (s : State) : s.leaveOpen.pins = s.pins := by simp [State.leaveOpen]
@[simp] theorem State.leaveOpen_resetHeld (s : State) : s.leaveOpen.resetHeld = s.resetHeld := by simp [State.leaveOpen]
@[simp] theorem State.leaveOpen_pending (s : State) : s.leaveOpen.pending = s.pending := by simp [State.leaveOpen]
@[simp] theorem State.leaveOpen_pcc_pockets (s : State) : s.leaveOpen.pcc.pockets = s.pcc.pockets := by simp [State.leaveOpen]
@[simp] theorem State.leaveOpen_pcc_hold (s : State) : s.leaveOpen.pcc.hold = s.pcc.hold := by simp [State.leaveOpen]
@[simp] theorem State.leaveOpen_pcc_position (s : State) : s.leaveOpen.pcc.position = s.pcc.position := by simp [State.leaveOpen]
@[simp] theorem State.leaveOpen_pcc_lastIntake (s : State) : s.leaveOpen.pcc.lastIntake = s.pcc.lastIntake := by simp [State.leaveOpen]
@[simp] theorem State.leaveOpen_pcc_stepInterval (s : State) : s.leaveOpen.pcc.stepInterval = s.pcc.stepInterval := by simp [State.leaveOpen]
@[simp] theorem State.leaveOpen_pcc_settleInterval (s : State) : s.leaveOpen.pcc.settleInterval = s.pcc.settleInterval := by simp [State.leaveOpen]
@[simp] theorem State.leaveOpen_pcc_prePosition (s : State) : s.leaveOpen.pcc.prePosition = s.pcc.prePosition := by simp [State.leaveOpen]
@[simp] theorem State.leaveOpen_pcc_weakOption (s : State) : s.leaveOpen.pcc.weakOption = s.pcc.weakOption := by simp [State.leaveOpen]
@[simp] theorem State.leaveOpen_intake_readings (s : State) : s.leaveOpen.intake.readings = s.intake.readings := by simp [State.leaveOpen]
@[simp] theorem State.leaveOpen_intake_drawerTimer (s : State) : s.leaveOpen.intake.drawerTimer = s.intake.drawerTimer := by simp [State.leaveOpen]
@[simp] theorem State.leaveOpen_intake_tagWindow (s : State) : s.leaveOpen.intake.tagWindow = s.intake.tagWindow := by simp [State.leaveOpen]
@[simp] theorem State.leaveOpen_intake_weighTimer (s : State) : s.leaveOpen.intake.weighTimer = s.intake.weighTimer := by simp [State.leaveOpen]
@[simp] theorem State.leaveOpen_intake_reader (s : State) : s.leaveOpen.intake.reader = s.intake.reader := by simp [State.leaveOpen]
@[simp] theorem State.leaveOpen_intake_takeUp (s : State) : s.leaveOpen.intake.takeUp = s.intake.takeUp := by simp [State.leaveOpen]
@[simp] theorem State.leaveOpen_rc_roster (s : State) : s.leaveOpen.rc.roster = s.rc.roster := by simp [State.leaveOpen]
@[simp] theorem State.leaveOpen_rc_wndw (s : State) : s.leaveOpen.rc.wndw = s.rc.wndw := by simp [State.leaveOpen]
@[simp] theorem State.leaveOpen_rc_policy (s : State) : s.leaveOpen.rc.policy = s.rc.policy := by simp [State.leaveOpen]
@[simp] theorem State.leaveOpen_rc_handoverInterval (s : State) : s.leaveOpen.rc.handoverInterval = s.rc.handoverInterval := by simp [State.leaveOpen]
@[simp] theorem State.leaveOpen_rc_pairingInterval (s : State) : s.leaveOpen.rc.pairingInterval = s.rc.pairingInterval := by simp [State.leaveOpen]
@[simp] theorem State.leaveOpen_rc_idleInterval (s : State) : s.leaveOpen.rc.idleInterval = s.rc.idleInterval := by simp [State.leaveOpen]
@[simp] theorem State.leaveOpen_rc_reader (s : State) : s.leaveOpen.rc.reader = s.rc.reader := by simp [State.leaveOpen]
@[simp] theorem State.leaveOpen_rc_lamp (s : State) : s.leaveOpen.rc.lamp = s.rc.lamp := by simp [State.leaveOpen]
@[simp] theorem State.leaveOpen_rc_handoverTimers (s : State) : s.leaveOpen.rc.handoverTimers = s.rc.handoverTimers := by simp [State.leaveOpen]

/-! ### closeSession -/
@[simp] theorem State.closeSession_cr (s : State) : s.closeSession.cr = s.cr := by
  unfold State.closeSession; dsimp only; (repeat' split) <;> simp
@[simp] theorem State.closeSession_trt (s : State) : s.closeSession.trt = s.trt := by
  unfold State.closeSession; dsimp only; (repeat' split) <;> simp
@[simp] theorem State.closeSession_wau (s : State) : s.closeSession.wau = s.wau := by
  unfold State.closeSession; dsimp only; (repeat' split) <;> simp
@[simp] theorem State.closeSession_ls (s : State) : s.closeSession.ls = s.ls := by
  unfold State.closeSession; dsimp only; (repeat' split) <;> simp
@[simp] theorem State.closeSession_ss (s : State) : s.closeSession.ss = s.ss := by
  unfold State.closeSession; dsimp only; (repeat' split) <;> simp
@[simp] theorem State.closeSession_pins (s : State) : s.closeSession.pins = s.pins := by
  unfold State.closeSession; dsimp only; (repeat' split) <;> simp
@[simp] theorem State.closeSession_resetHeld (s : State) : s.closeSession.resetHeld = s.resetHeld := by
  unfold State.closeSession; dsimp only; (repeat' split) <;> simp
@[simp] theorem State.closeSession_pending (s : State) : s.closeSession.pending = s.pending := by
  unfold State.closeSession; dsimp only; (repeat' split) <;> simp
@[simp] theorem State.closeSession_pcc_pockets (s : State) : s.closeSession.pcc.pockets = s.pcc.pockets := by
  unfold State.closeSession; dsimp only; (repeat' split) <;> simp
@[simp] theorem State.closeSession_pcc_hold (s : State) : s.closeSession.pcc.hold = s.pcc.hold := by
  unfold State.closeSession; dsimp only; (repeat' split) <;> simp
@[simp] theorem State.closeSession_pcc_position (s : State) : s.closeSession.pcc.position = s.pcc.position := by
  unfold State.closeSession; dsimp only; (repeat' split) <;> simp
@[simp] theorem State.closeSession_pcc_lastIntake (s : State) : s.closeSession.pcc.lastIntake = s.pcc.lastIntake := by
  unfold State.closeSession; dsimp only; (repeat' split) <;> simp
@[simp] theorem State.closeSession_pcc_stepInterval (s : State) : s.closeSession.pcc.stepInterval = s.pcc.stepInterval := by
  unfold State.closeSession; dsimp only; (repeat' split) <;> simp
@[simp] theorem State.closeSession_pcc_settleInterval (s : State) : s.closeSession.pcc.settleInterval = s.pcc.settleInterval := by
  unfold State.closeSession; dsimp only; (repeat' split) <;> simp
@[simp] theorem State.closeSession_pcc_prePosition (s : State) : s.closeSession.pcc.prePosition = s.pcc.prePosition := by
  unfold State.closeSession; dsimp only; (repeat' split) <;> simp
@[simp] theorem State.closeSession_pcc_weakOption (s : State) : s.closeSession.pcc.weakOption = s.pcc.weakOption := by
  unfold State.closeSession; dsimp only; (repeat' split) <;> simp
@[simp] theorem State.closeSession_intake_readings (s : State) : s.closeSession.intake.readings = s.intake.readings := by
  unfold State.closeSession; dsimp only; (repeat' split) <;> simp
@[simp] theorem State.closeSession_intake_drawerTimer (s : State) : s.closeSession.intake.drawerTimer = s.intake.drawerTimer := by
  unfold State.closeSession; dsimp only; (repeat' split) <;> simp
@[simp] theorem State.closeSession_intake_tagWindow (s : State) : s.closeSession.intake.tagWindow = s.intake.tagWindow := by
  unfold State.closeSession; dsimp only; (repeat' split) <;> simp
@[simp] theorem State.closeSession_intake_weighTimer (s : State) : s.closeSession.intake.weighTimer = s.intake.weighTimer := by
  unfold State.closeSession; dsimp only; (repeat' split) <;> simp
@[simp] theorem State.closeSession_intake_reader (s : State) : s.closeSession.intake.reader = s.intake.reader := by
  unfold State.closeSession; dsimp only; (repeat' split) <;> simp
@[simp] theorem State.closeSession_intake_takeUp (s : State) : s.closeSession.intake.takeUp = s.intake.takeUp := by
  unfold State.closeSession; dsimp only; (repeat' split) <;> simp
@[simp] theorem State.closeSession_rc_roster (s : State) : s.closeSession.rc.roster = s.rc.roster := by
  unfold State.closeSession; dsimp only; (repeat' split) <;> simp
@[simp] theorem State.closeSession_rc_wndw (s : State) : s.closeSession.rc.wndw = s.rc.wndw := by
  unfold State.closeSession; dsimp only; (repeat' split) <;> simp
@[simp] theorem State.closeSession_rc_policy (s : State) : s.closeSession.rc.policy = s.rc.policy := by
  unfold State.closeSession; dsimp only; (repeat' split) <;> simp
@[simp] theorem State.closeSession_rc_handoverInterval (s : State) : s.closeSession.rc.handoverInterval = s.rc.handoverInterval := by
  unfold State.closeSession; dsimp only; (repeat' split) <;> simp
@[simp] theorem State.closeSession_rc_pairingInterval (s : State) : s.closeSession.rc.pairingInterval = s.rc.pairingInterval := by
  unfold State.closeSession; dsimp only; (repeat' split) <;> simp
@[simp] theorem State.closeSession_rc_idleInterval (s : State) : s.closeSession.rc.idleInterval = s.rc.idleInterval := by
  unfold State.closeSession; dsimp only; (repeat' split) <;> simp
@[simp] theorem State.closeSession_rc_reader (s : State) : s.closeSession.rc.reader = s.rc.reader := by
  unfold State.closeSession; dsimp only; (repeat' split) <;> simp
@[simp] theorem State.closeSession_rc_lamp (s : State) : s.closeSession.rc.lamp = s.rc.lamp := by
  unfold State.closeSession; dsimp only; (repeat' split) <;> simp
@[simp] theorem State.closeSession_rc_handoverTimers (s : State) : s.closeSession.rc.handoverTimers = s.rc.handoverTimers := by
  unfold State.closeSession; dsimp only; (repeat' split) <;> simp

/-! ### restartIdle -/
@[simp] theorem State.restartIdle_cr (s : State) : s.restartIdle.cr = s.cr := by
  unfold State.restartIdle; dsimp only; (repeat' split) <;> simp
@[simp] theorem State.restartIdle_trt (s : State) : s.restartIdle.trt = s.trt := by
  unfold State.restartIdle; dsimp only; (repeat' split) <;> simp
@[simp] theorem State.restartIdle_wau (s : State) : s.restartIdle.wau = s.wau := by
  unfold State.restartIdle; dsimp only; (repeat' split) <;> simp
@[simp] theorem State.restartIdle_pcc (s : State) : s.restartIdle.pcc = s.pcc := by
  unfold State.restartIdle; dsimp only; (repeat' split) <;> simp
@[simp] theorem State.restartIdle_intake (s : State) : s.restartIdle.intake = s.intake := by
  unfold State.restartIdle; dsimp only; (repeat' split) <;> simp
@[simp] theorem State.restartIdle_ls (s : State) : s.restartIdle.ls = s.ls := by
  unfold State.restartIdle; dsimp only; (repeat' split) <;> simp
@[simp] theorem State.restartIdle_ss (s : State) : s.restartIdle.ss = s.ss := by
  unfold State.restartIdle; dsimp only; (repeat' split) <;> simp
@[simp] theorem State.restartIdle_pins (s : State) : s.restartIdle.pins = s.pins := by
  unfold State.restartIdle; dsimp only; (repeat' split) <;> simp
@[simp] theorem State.restartIdle_resetHeld (s : State) : s.restartIdle.resetHeld = s.resetHeld := by
  unfold State.restartIdle; dsimp only; (repeat' split) <;> simp
@[simp] theorem State.restartIdle_pending (s : State) : s.restartIdle.pending = s.pending := by
  unfold State.restartIdle; dsimp only; (repeat' split) <;> simp
@[simp] theorem State.restartIdle_rc_roster (s : State) : s.restartIdle.rc.roster = s.rc.roster := by
  unfold State.restartIdle; dsimp only; (repeat' split) <;> simp
@[simp] theorem State.restartIdle_rc_wndw (s : State) : s.restartIdle.rc.wndw = s.rc.wndw := by
  unfold State.restartIdle; dsimp only; (repeat' split) <;> simp
@[simp] theorem State.restartIdle_rc_openPocket (s : State) : s.restartIdle.rc.openPocket = s.rc.openPocket := by
  unfold State.restartIdle; dsimp only; (repeat' split) <;> simp
@[simp] theorem State.restartIdle_rc_hatch (s : State) : s.restartIdle.rc.hatch = s.rc.hatch := by
  unfold State.restartIdle; dsimp only; (repeat' split) <;> simp
@[simp] theorem State.restartIdle_rc_unopenedTimer (s : State) : s.restartIdle.rc.unopenedTimer = s.rc.unopenedTimer := by
  unfold State.restartIdle; dsimp only; (repeat' split) <;> simp
@[simp] theorem State.restartIdle_rc_guardMark (s : State) : s.restartIdle.rc.guardMark = s.rc.guardMark := by
  unfold State.restartIdle; dsimp only; (repeat' split) <;> simp
@[simp] theorem State.restartIdle_rc_lamp (s : State) : s.restartIdle.rc.lamp = s.rc.lamp := by
  unfold State.restartIdle; dsimp only; (repeat' split) <;> simp
@[simp] theorem State.restartIdle_rc_reader (s : State) : s.restartIdle.rc.reader = s.rc.reader := by
  unfold State.restartIdle; dsimp only; (repeat' split) <;> simp
@[simp] theorem State.restartIdle_rc_policy (s : State) : s.restartIdle.rc.policy = s.rc.policy := by
  unfold State.restartIdle; dsimp only; (repeat' split) <;> simp
@[simp] theorem State.restartIdle_rc_handoverTimers (s : State) : s.restartIdle.rc.handoverTimers = s.rc.handoverTimers := by
  unfold State.restartIdle; dsimp only; (repeat' split) <;> simp
@[simp] theorem State.restartIdle_rc_handoverInterval (s : State) : s.restartIdle.rc.handoverInterval = s.rc.handoverInterval := by
  unfold State.restartIdle; dsimp only; (repeat' split) <;> simp
@[simp] theorem State.restartIdle_rc_pairingInterval (s : State) : s.restartIdle.rc.pairingInterval = s.rc.pairingInterval := by
  unfold State.restartIdle; dsimp only; (repeat' split) <;> simp
@[simp] theorem State.restartIdle_rc_idleInterval (s : State) : s.restartIdle.rc.idleInterval = s.rc.idleInterval := by
  unfold State.restartIdle; dsimp only; (repeat' split) <;> simp

/-! ### offerIntake -/
@[simp] theorem State.offerIntake_trt (s : State) (p : Fin 21) : (s.offerIntake p).trt = s.trt := by
  unfold State.offerIntake; (repeat' split) <;> simp
@[simp] theorem State.offerIntake_wau (s : State) (p : Fin 21) : (s.offerIntake p).wau = s.wau := by
  unfold State.offerIntake; (repeat' split) <;> simp
@[simp] theorem State.offerIntake_ss (s : State) (p : Fin 21) : (s.offerIntake p).ss = s.ss := by
  unfold State.offerIntake; (repeat' split) <;> simp
@[simp] theorem State.offerIntake_pins (s : State) (p : Fin 21) : (s.offerIntake p).pins = s.pins := by
  unfold State.offerIntake; (repeat' split) <;> simp
@[simp] theorem State.offerIntake_resetHeld (s : State) (p : Fin 21) : (s.offerIntake p).resetHeld = s.resetHeld := by
  unfold State.offerIntake; (repeat' split) <;> simp
@[simp] theorem State.offerIntake_pending (s : State) (p : Fin 21) : (s.offerIntake p).pending = s.pending := by
  unfold State.offerIntake; (repeat' split) <;> simp
@[simp] theorem State.offerIntake_cr_tagIndex (s : State) (p : Fin 21) : (s.offerIntake p).cr.tagIndex = s.cr.tagIndex := by
  unfold State.offerIntake; (repeat' split) <;> simp
@[simp] theorem State.offerIntake_cr_receiptCounter (s : State) (p : Fin 21) : (s.offerIntake p).cr.receiptCounter = s.cr.receiptCounter := by
  unfold State.offerIntake; (repeat' split) <;> simp
@[simp] theorem State.offerIntake_cr_lists (s : State) (p : Fin 21) : (s.offerIntake p).cr.lists = s.cr.lists := by
  unfold State.offerIntake; (repeat' split) <;> simp
@[simp] theorem State.offerIntake_cr_night (s : State) (p : Fin 21) : (s.offerIntake p).cr.night = s.cr.night := by
  unfold State.offerIntake; (repeat' split) <;> simp
@[simp] theorem State.offerIntake_cr_totals (s : State) (p : Fin 21) : (s.offerIntake p).cr.totals = s.cr.totals := by
  unfold State.offerIntake; (repeat' split) <;> simp
@[simp] theorem State.offerIntake_cr_lossPending (s : State) (p : Fin 21) : (s.offerIntake p).cr.lossPending = s.cr.lossPending := by
  unfold State.offerIntake; (repeat' split) <;> simp
@[simp] theorem State.offerIntake_cr_storeValid (s : State) (p : Fin 21) : (s.offerIntake p).cr.storeValid = s.cr.storeValid := by
  unfold State.offerIntake; (repeat' split) <;> simp
@[simp] theorem State.offerIntake_cr_graceInterval (s : State) (p : Fin 21) : (s.offerIntake p).cr.graceInterval = s.cr.graceInterval := by
  unfold State.offerIntake; (repeat' split) <;> simp
@[simp] theorem State.offerIntake_pcc_pockets (s : State) (p : Fin 21) : (s.offerIntake p).pcc.pockets = s.pcc.pockets := by
  unfold State.offerIntake; (repeat' split) <;> simp
@[simp] theorem State.offerIntake_pcc_position (s : State) (p : Fin 21) : (s.offerIntake p).pcc.position = s.pcc.position := by
  unfold State.offerIntake; (repeat' split) <;> simp
@[simp] theorem State.offerIntake_pcc_lastIntake (s : State) (p : Fin 21) : (s.offerIntake p).pcc.lastIntake = s.pcc.lastIntake := by
  unfold State.offerIntake; (repeat' split) <;> simp
@[simp] theorem State.offerIntake_pcc_stepInterval (s : State) (p : Fin 21) : (s.offerIntake p).pcc.stepInterval = s.pcc.stepInterval := by
  unfold State.offerIntake; (repeat' split) <;> simp
@[simp] theorem State.offerIntake_pcc_settleInterval (s : State) (p : Fin 21) : (s.offerIntake p).pcc.settleInterval = s.pcc.settleInterval := by
  unfold State.offerIntake; (repeat' split) <;> simp
@[simp] theorem State.offerIntake_pcc_prePosition (s : State) (p : Fin 21) : (s.offerIntake p).pcc.prePosition = s.pcc.prePosition := by
  unfold State.offerIntake; (repeat' split) <;> simp
@[simp] theorem State.offerIntake_pcc_weakOption (s : State) (p : Fin 21) : (s.offerIntake p).pcc.weakOption = s.pcc.weakOption := by
  unfold State.offerIntake; (repeat' split) <;> simp
@[simp] theorem State.offerIntake_intake_readings (s : State) (p : Fin 21) : (s.offerIntake p).intake.readings = s.intake.readings := by
  unfold State.offerIntake; (repeat' split) <;> simp
@[simp] theorem State.offerIntake_intake_reader (s : State) (p : Fin 21) : (s.offerIntake p).intake.reader = s.intake.reader := by
  unfold State.offerIntake; (repeat' split) <;> simp
@[simp] theorem State.offerIntake_intake_takeUp (s : State) (p : Fin 21) : (s.offerIntake p).intake.takeUp = s.intake.takeUp := by
  unfold State.offerIntake; (repeat' split) <;> simp
@[simp] theorem State.offerIntake_ls_branch (s : State) (p : Fin 21) : (s.offerIntake p).ls.branch = s.ls.branch := by
  unfold State.offerIntake; (repeat' split) <;> simp
@[simp] theorem State.offerIntake_ls_panel (s : State) (p : Fin 21) : (s.offerIntake p).ls.panel = s.ls.panel := by
  unfold State.offerIntake; (repeat' split) <;> simp
@[simp] theorem State.offerIntake_ls_enables (s : State) (p : Fin 21) : (s.offerIntake p).ls.enables = s.ls.enables := by
  unfold State.offerIntake; (repeat' split) <;> simp
@[simp] theorem State.offerIntake_ls_clock (s : State) (p : Fin 21) : (s.offerIntake p).ls.clock = s.ls.clock := by
  unfold State.offerIntake; (repeat' split) <;> simp
@[simp] theorem State.offerIntake_rc_roster (s : State) (p : Fin 21) : (s.offerIntake p).rc.roster = s.rc.roster := by
  unfold State.offerIntake; (repeat' split) <;> simp
@[simp] theorem State.offerIntake_rc_wndw (s : State) (p : Fin 21) : (s.offerIntake p).rc.wndw = s.rc.wndw := by
  unfold State.offerIntake; (repeat' split) <;> simp
@[simp] theorem State.offerIntake_rc_policy (s : State) (p : Fin 21) : (s.offerIntake p).rc.policy = s.rc.policy := by
  unfold State.offerIntake; (repeat' split) <;> simp
@[simp] theorem State.offerIntake_rc_handoverInterval (s : State) (p : Fin 21) : (s.offerIntake p).rc.handoverInterval = s.rc.handoverInterval := by
  unfold State.offerIntake; (repeat' split) <;> simp
@[simp] theorem State.offerIntake_rc_pairingInterval (s : State) (p : Fin 21) : (s.offerIntake p).rc.pairingInterval = s.rc.pairingInterval := by
  unfold State.offerIntake; (repeat' split) <;> simp
@[simp] theorem State.offerIntake_rc_idleInterval (s : State) (p : Fin 21) : (s.offerIntake p).rc.idleInterval = s.rc.idleInterval := by
  unfold State.offerIntake; (repeat' split) <;> simp
@[simp] theorem State.offerIntake_rc_reader (s : State) (p : Fin 21) : (s.offerIntake p).rc.reader = s.rc.reader := by
  unfold State.offerIntake; (repeat' split) <;> simp
@[simp] theorem State.offerIntake_rc_lamp (s : State) (p : Fin 21) : (s.offerIntake p).rc.lamp = s.rc.lamp := by
  unfold State.offerIntake; (repeat' split) <;> simp
@[simp] theorem State.offerIntake_rc_session (s : State) (p : Fin 21) : (s.offerIntake p).rc.session = s.rc.session := by
  unfold State.offerIntake; (repeat' split) <;> simp
@[simp] theorem State.offerIntake_rc_guardMark (s : State) (p : Fin 21) : (s.offerIntake p).rc.guardMark = s.rc.guardMark := by
  unfold State.offerIntake; (repeat' split) <;> simp
@[simp] theorem State.offerIntake_rc_handoverTimers (s : State) (p : Fin 21) : (s.offerIntake p).rc.handoverTimers = s.rc.handoverTimers := by
  unfold State.offerIntake; (repeat' split) <;> simp

/-! ### decideRoute -/
@[simp] theorem State.decideRoute_trt (s : State) : s.decideRoute.trt = s.trt := by
  unfold State.decideRoute; dsimp only; (repeat' split) <;> simp
@[simp] theorem State.decideRoute_ss (s : State) : s.decideRoute.ss = s.ss := by
  unfold State.decideRoute; dsimp only; (repeat' split) <;> simp
@[simp] theorem State.decideRoute_pins (s : State) : s.decideRoute.pins = s.pins := by
  unfold State.decideRoute; dsimp only; (repeat' split) <;> simp
@[simp] theorem State.decideRoute_resetHeld (s : State) : s.decideRoute.resetHeld = s.resetHeld := by
  unfold State.decideRoute; dsimp only; (repeat' split) <;> simp
@[simp] theorem State.decideRoute_pending (s : State) : s.decideRoute.pending = s.pending := by
  unfold State.decideRoute; dsimp only; (repeat' split) <;> simp
@[simp] theorem State.decideRoute_cr_tagIndex (s : State) : s.decideRoute.cr.tagIndex = s.cr.tagIndex := by
  unfold State.decideRoute; dsimp only; (repeat' split) <;> simp
@[simp] theorem State.decideRoute_cr_receiptCounter (s : State) : s.decideRoute.cr.receiptCounter = s.cr.receiptCounter := by
  unfold State.decideRoute; dsimp only; (repeat' split) <;> simp
@[simp] theorem State.decideRoute_cr_lists (s : State) : s.decideRoute.cr.lists = s.cr.lists := by
  unfold State.decideRoute; dsimp only; (repeat' split) <;> simp
@[simp] theorem State.decideRoute_cr_night (s : State) : s.decideRoute.cr.night = s.cr.night := by
  unfold State.decideRoute; dsimp only; (repeat' split) <;> simp
@[simp] theorem State.decideRoute_cr_totals (s : State) : s.decideRoute.cr.totals = s.cr.totals := by
  unfold State.decideRoute; dsimp only; (repeat' split) <;> simp
@[simp] theorem State.decideRoute_cr_lossPending (s : State) : s.decideRoute.cr.lossPending = s.cr.lossPending := by
  unfold State.decideRoute; dsimp only; (repeat' split) <;> simp
@[simp] theorem State.decideRoute_cr_storeValid (s : State) : s.decideRoute.cr.storeValid = s.cr.storeValid := by
  unfold State.decideRoute; dsimp only; (repeat' split) <;> simp
@[simp] theorem State.decideRoute_cr_graceInterval (s : State) : s.decideRoute.cr.graceInterval = s.cr.graceInterval := by
  unfold State.decideRoute; dsimp only; (repeat' split) <;> simp
@[simp] theorem State.decideRoute_wau_denoms (s : State) : s.decideRoute.wau.denoms = s.wau.denoms := by
  unfold State.decideRoute; dsimp only; (repeat' split) <;> simp
@[simp] theorem State.decideRoute_wau_tols (s : State) : s.decideRoute.wau.tols = s.wau.tols := by
  unfold State.decideRoute; dsimp only; (repeat' split) <;> simp
@[simp] theorem State.decideRoute_pcc_pockets (s : State) : s.decideRoute.pcc.pockets = s.pcc.pockets := by
  unfold State.decideRoute; dsimp only; (repeat' split) <;> simp
@[simp] theorem State.decideRoute_pcc_position (s : State) : s.decideRoute.pcc.position = s.pcc.position := by
  unfold State.decideRoute; dsimp only; (repeat' split) <;> simp
@[simp] theorem State.decideRoute_pcc_lastIntake (s : State) : s.decideRoute.pcc.lastIntake = s.pcc.lastIntake := by
  unfold State.decideRoute; dsimp only; (repeat' split) <;> simp
@[simp] theorem State.decideRoute_pcc_stepInterval (s : State) : s.decideRoute.pcc.stepInterval = s.pcc.stepInterval := by
  unfold State.decideRoute; dsimp only; (repeat' split) <;> simp
@[simp] theorem State.decideRoute_pcc_settleInterval (s : State) : s.decideRoute.pcc.settleInterval = s.pcc.settleInterval := by
  unfold State.decideRoute; dsimp only; (repeat' split) <;> simp
@[simp] theorem State.decideRoute_pcc_prePosition (s : State) : s.decideRoute.pcc.prePosition = s.pcc.prePosition := by
  unfold State.decideRoute; dsimp only; (repeat' split) <;> simp
@[simp] theorem State.decideRoute_pcc_weakOption (s : State) : s.decideRoute.pcc.weakOption = s.pcc.weakOption := by
  unfold State.decideRoute; dsimp only; (repeat' split) <;> simp
@[simp] theorem State.decideRoute_intake_reader (s : State) : s.decideRoute.intake.reader = s.intake.reader := by
  unfold State.decideRoute; dsimp only; (repeat' split) <;> simp
@[simp] theorem State.decideRoute_intake_takeUp (s : State) : s.decideRoute.intake.takeUp = s.intake.takeUp := by
  unfold State.decideRoute; dsimp only; (repeat' split) <;> simp
@[simp] theorem State.decideRoute_ls_branch (s : State) : s.decideRoute.ls.branch = s.ls.branch := by
  unfold State.decideRoute; dsimp only; (repeat' split) <;> simp
@[simp] theorem State.decideRoute_ls_panel (s : State) : s.decideRoute.ls.panel = s.ls.panel := by
  unfold State.decideRoute; dsimp only; (repeat' split) <;> simp
@[simp] theorem State.decideRoute_ls_enables (s : State) : s.decideRoute.ls.enables = s.ls.enables := by
  unfold State.decideRoute; dsimp only; (repeat' split) <;> simp
@[simp] theorem State.decideRoute_ls_clock (s : State) : s.decideRoute.ls.clock = s.ls.clock := by
  unfold State.decideRoute; dsimp only; (repeat' split) <;> simp
@[simp] theorem State.decideRoute_rc_roster (s : State) : s.decideRoute.rc.roster = s.rc.roster := by
  unfold State.decideRoute; dsimp only; (repeat' split) <;> simp
@[simp] theorem State.decideRoute_rc_wndw (s : State) : s.decideRoute.rc.wndw = s.rc.wndw := by
  unfold State.decideRoute; dsimp only; (repeat' split) <;> simp
@[simp] theorem State.decideRoute_rc_policy (s : State) : s.decideRoute.rc.policy = s.rc.policy := by
  unfold State.decideRoute; dsimp only; (repeat' split) <;> simp
@[simp] theorem State.decideRoute_rc_handoverInterval (s : State) : s.decideRoute.rc.handoverInterval = s.rc.handoverInterval := by
  unfold State.decideRoute; dsimp only; (repeat' split) <;> simp
@[simp] theorem State.decideRoute_rc_pairingInterval (s : State) : s.decideRoute.rc.pairingInterval = s.rc.pairingInterval := by
  unfold State.decideRoute; dsimp only; (repeat' split) <;> simp
@[simp] theorem State.decideRoute_rc_idleInterval (s : State) : s.decideRoute.rc.idleInterval = s.rc.idleInterval := by
  unfold State.decideRoute; dsimp only; (repeat' split) <;> simp
@[simp] theorem State.decideRoute_rc_reader (s : State) : s.decideRoute.rc.reader = s.rc.reader := by
  unfold State.decideRoute; dsimp only; (repeat' split) <;> simp
@[simp] theorem State.decideRoute_rc_lamp (s : State) : s.decideRoute.rc.lamp = s.rc.lamp := by
  unfold State.decideRoute; dsimp only; (repeat' split) <;> simp
@[simp] theorem State.decideRoute_rc_session (s : State) : s.decideRoute.rc.session = s.rc.session := by
  unfold State.decideRoute; dsimp only; (repeat' split) <;> simp
@[simp] theorem State.decideRoute_rc_guardMark (s : State) : s.decideRoute.rc.guardMark = s.rc.guardMark := by
  unfold State.decideRoute; dsimp only; (repeat' split) <;> simp
@[simp] theorem State.decideRoute_rc_handoverTimers (s : State) : s.decideRoute.rc.handoverTimers = s.rc.handoverTimers := by
  unfold State.decideRoute; dsimp only; (repeat' split) <;> simp

/-! ### takeRoute -/
@[simp] theorem State.takeRoute_trt (s : State) : s.takeRoute.trt = s.trt := by
  unfold State.takeRoute; (repeat' split) <;> simp
@[simp] theorem State.takeRoute_ss (s : State) : s.takeRoute.ss = s.ss := by
  unfold State.takeRoute; (repeat' split) <;> simp
@[simp] theorem State.takeRoute_pins (s : State) : s.takeRoute.pins = s.pins := by
  unfold State.takeRoute; (repeat' split) <;> simp
@[simp] theorem State.takeRoute_resetHeld (s : State) : s.takeRoute.resetHeld = s.resetHeld := by
  unfold State.takeRoute; (repeat' split) <;> simp
@[simp] theorem State.takeRoute_pending (s : State) : s.takeRoute.pending = s.pending := by
  unfold State.takeRoute; (repeat' split) <;> simp
@[simp] theorem State.takeRoute_cr_tagIndex (s : State) : s.takeRoute.cr.tagIndex = s.cr.tagIndex := by
  unfold State.takeRoute; (repeat' split) <;> simp
@[simp] theorem State.takeRoute_cr_receiptCounter (s : State) : s.takeRoute.cr.receiptCounter = s.cr.receiptCounter := by
  unfold State.takeRoute; (repeat' split) <;> simp
@[simp] theorem State.takeRoute_cr_lists (s : State) : s.takeRoute.cr.lists = s.cr.lists := by
  unfold State.takeRoute; (repeat' split) <;> simp
@[simp] theorem State.takeRoute_cr_night (s : State) : s.takeRoute.cr.night = s.cr.night := by
  unfold State.takeRoute; (repeat' split) <;> simp
@[simp] theorem State.takeRoute_cr_totals (s : State) : s.takeRoute.cr.totals = s.cr.totals := by
  unfold State.takeRoute; (repeat' split) <;> simp
@[simp] theorem State.takeRoute_cr_lossPending (s : State) : s.takeRoute.cr.lossPending = s.cr.lossPending := by
  unfold State.takeRoute; (repeat' split) <;> simp
@[simp] theorem State.takeRoute_cr_storeValid (s : State) : s.takeRoute.cr.storeValid = s.cr.storeValid := by
  unfold State.takeRoute; (repeat' split) <;> simp
@[simp] theorem State.takeRoute_cr_graceInterval (s : State) : s.takeRoute.cr.graceInterval = s.cr.graceInterval := by
  unfold State.takeRoute; (repeat' split) <;> simp
@[simp] theorem State.takeRoute_wau_denoms (s : State) : s.takeRoute.wau.denoms = s.wau.denoms := by
  unfold State.takeRoute; (repeat' split) <;> simp
@[simp] theorem State.takeRoute_wau_tols (s : State) : s.takeRoute.wau.tols = s.wau.tols := by
  unfold State.takeRoute; (repeat' split) <;> simp
@[simp] theorem State.takeRoute_pcc_pockets (s : State) : s.takeRoute.pcc.pockets = s.pcc.pockets := by
  unfold State.takeRoute; (repeat' split) <;> simp
@[simp] theorem State.takeRoute_pcc_position (s : State) : s.takeRoute.pcc.position = s.pcc.position := by
  unfold State.takeRoute; (repeat' split) <;> simp
@[simp] theorem State.takeRoute_pcc_lastIntake (s : State) : s.takeRoute.pcc.lastIntake = s.pcc.lastIntake := by
  unfold State.takeRoute; (repeat' split) <;> simp
@[simp] theorem State.takeRoute_pcc_stepInterval (s : State) : s.takeRoute.pcc.stepInterval = s.pcc.stepInterval := by
  unfold State.takeRoute; (repeat' split) <;> simp
@[simp] theorem State.takeRoute_pcc_settleInterval (s : State) : s.takeRoute.pcc.settleInterval = s.pcc.settleInterval := by
  unfold State.takeRoute; (repeat' split) <;> simp
@[simp] theorem State.takeRoute_pcc_prePosition (s : State) : s.takeRoute.pcc.prePosition = s.pcc.prePosition := by
  unfold State.takeRoute; (repeat' split) <;> simp
@[simp] theorem State.takeRoute_pcc_weakOption (s : State) : s.takeRoute.pcc.weakOption = s.pcc.weakOption := by
  unfold State.takeRoute; (repeat' split) <;> simp
@[simp] theorem State.takeRoute_intake_reader (s : State) : s.takeRoute.intake.reader = s.intake.reader := by
  unfold State.takeRoute; (repeat' split) <;> simp
@[simp] theorem State.takeRoute_intake_takeUp (s : State) : s.takeRoute.intake.takeUp = s.intake.takeUp := by
  unfold State.takeRoute; (repeat' split) <;> simp
@[simp] theorem State.takeRoute_ls_branch (s : State) : s.takeRoute.ls.branch = s.ls.branch := by
  unfold State.takeRoute; (repeat' split) <;> simp
@[simp] theorem State.takeRoute_ls_panel (s : State) : s.takeRoute.ls.panel = s.ls.panel := by
  unfold State.takeRoute; (repeat' split) <;> simp
@[simp] theorem State.takeRoute_ls_enables (s : State) : s.takeRoute.ls.enables = s.ls.enables := by
  unfold State.takeRoute; (repeat' split) <;> simp
@[simp] theorem State.takeRoute_ls_clock (s : State) : s.takeRoute.ls.clock = s.ls.clock := by
  unfold State.takeRoute; (repeat' split) <;> simp
@[simp] theorem State.takeRoute_rc_roster (s : State) : s.takeRoute.rc.roster = s.rc.roster := by
  unfold State.takeRoute; (repeat' split) <;> simp
@[simp] theorem State.takeRoute_rc_wndw (s : State) : s.takeRoute.rc.wndw = s.rc.wndw := by
  unfold State.takeRoute; (repeat' split) <;> simp
@[simp] theorem State.takeRoute_rc_policy (s : State) : s.takeRoute.rc.policy = s.rc.policy := by
  unfold State.takeRoute; (repeat' split) <;> simp
@[simp] theorem State.takeRoute_rc_handoverInterval (s : State) : s.takeRoute.rc.handoverInterval = s.rc.handoverInterval := by
  unfold State.takeRoute; (repeat' split) <;> simp
@[simp] theorem State.takeRoute_rc_pairingInterval (s : State) : s.takeRoute.rc.pairingInterval = s.rc.pairingInterval := by
  unfold State.takeRoute; (repeat' split) <;> simp
@[simp] theorem State.takeRoute_rc_idleInterval (s : State) : s.takeRoute.rc.idleInterval = s.rc.idleInterval := by
  unfold State.takeRoute; (repeat' split) <;> simp
@[simp] theorem State.takeRoute_rc_reader (s : State) : s.takeRoute.rc.reader = s.rc.reader := by
  unfold State.takeRoute; (repeat' split) <;> simp
@[simp] theorem State.takeRoute_rc_lamp (s : State) : s.takeRoute.rc.lamp = s.rc.lamp := by
  unfold State.takeRoute; (repeat' split) <;> simp
@[simp] theorem State.takeRoute_rc_session (s : State) : s.takeRoute.rc.session = s.rc.session := by
  unfold State.takeRoute; (repeat' split) <;> simp
@[simp] theorem State.takeRoute_rc_guardMark (s : State) : s.takeRoute.rc.guardMark = s.rc.guardMark := by
  unfold State.takeRoute; (repeat' split) <;> simp
@[simp] theorem State.takeRoute_rc_handoverTimers (s : State) : s.takeRoute.rc.handoverTimers = s.rc.handoverTimers := by
  unfold State.takeRoute; (repeat' split) <;> simp

/-! ### enterRoute -/
@[simp] theorem State.enterRoute_trt (s : State) : s.enterRoute.trt = s.trt := by simp [State.enterRoute]
@[simp] theorem State.enterRoute_ss (s : State) : s.enterRoute.ss = s.ss := by simp [State.enterRoute]
@[simp] theorem State.enterRoute_pins (s : State) : s.enterRoute.pins = s.pins := by simp [State.enterRoute]
@[simp] theorem State.enterRoute_resetHeld (s : State) : s.enterRoute.resetHeld = s.resetHeld := by simp [State.enterRoute]
@[simp] theorem State.enterRoute_pending (s : State) : s.enterRoute.pending = s.pending := by simp [State.enterRoute]
@[simp] theorem State.enterRoute_cr_tagIndex (s : State) : s.enterRoute.cr.tagIndex = s.cr.tagIndex := by simp [State.enterRoute]
@[simp] theorem State.enterRoute_cr_receiptCounter (s : State) : s.enterRoute.cr.receiptCounter = s.cr.receiptCounter := by simp [State.enterRoute]
@[simp] theorem State.enterRoute_cr_lists (s : State) : s.enterRoute.cr.lists = s.cr.lists := by simp [State.enterRoute]
@[simp] theorem State.enterRoute_cr_night (s : State) : s.enterRoute.cr.night = s.cr.night := by simp [State.enterRoute]
@[simp] theorem State.enterRoute_cr_totals (s : State) : s.enterRoute.cr.totals = s.cr.totals := by simp [State.enterRoute]
@[simp] theorem State.enterRoute_cr_lossPending (s : State) : s.enterRoute.cr.lossPending = s.cr.lossPending := by simp [State.enterRoute]
@[simp] theorem State.enterRoute_cr_storeValid (s : State) : s.enterRoute.cr.storeValid = s.cr.storeValid := by simp [State.enterRoute]
@[simp] theorem State.enterRoute_cr_graceInterval (s : State) : s.enterRoute.cr.graceInterval = s.cr.graceInterval := by simp [State.enterRoute]
@[simp] theorem State.enterRoute_wau_denoms (s : State) : s.enterRoute.wau.denoms = s.wau.denoms := by simp [State.enterRoute]
@[simp] theorem State.enterRoute_wau_tols (s : State) : s.enterRoute.wau.tols = s.wau.tols := by simp [State.enterRoute]
@[simp] theorem State.enterRoute_pcc_pockets (s : State) : s.enterRoute.pcc.pockets = s.pcc.pockets := by simp [State.enterRoute]
@[simp] theorem State.enterRoute_pcc_position (s : State) : s.enterRoute.pcc.position = s.pcc.position := by simp [State.enterRoute]
@[simp] theorem State.enterRoute_pcc_lastIntake (s : State) : s.enterRoute.pcc.lastIntake = s.pcc.lastIntake := by simp [State.enterRoute]
@[simp] theorem State.enterRoute_pcc_stepInterval (s : State) : s.enterRoute.pcc.stepInterval = s.pcc.stepInterval := by simp [State.enterRoute]
@[simp] theorem State.enterRoute_pcc_settleInterval (s : State) : s.enterRoute.pcc.settleInterval = s.pcc.settleInterval := by simp [State.enterRoute]
@[simp] theorem State.enterRoute_pcc_prePosition (s : State) : s.enterRoute.pcc.prePosition = s.pcc.prePosition := by simp [State.enterRoute]
@[simp] theorem State.enterRoute_pcc_weakOption (s : State) : s.enterRoute.pcc.weakOption = s.pcc.weakOption := by simp [State.enterRoute]
@[simp] theorem State.enterRoute_intake_reader (s : State) : s.enterRoute.intake.reader = s.intake.reader := by simp [State.enterRoute]
@[simp] theorem State.enterRoute_intake_takeUp (s : State) : s.enterRoute.intake.takeUp = s.intake.takeUp := by simp [State.enterRoute]
@[simp] theorem State.enterRoute_ls_branch (s : State) : s.enterRoute.ls.branch = s.ls.branch := by simp [State.enterRoute]
@[simp] theorem State.enterRoute_ls_panel (s : State) : s.enterRoute.ls.panel = s.ls.panel := by simp [State.enterRoute]
@[simp] theorem State.enterRoute_ls_enables (s : State) : s.enterRoute.ls.enables = s.ls.enables := by simp [State.enterRoute]
@[simp] theorem State.enterRoute_ls_clock (s : State) : s.enterRoute.ls.clock = s.ls.clock := by simp [State.enterRoute]
@[simp] theorem State.enterRoute_rc_roster (s : State) : s.enterRoute.rc.roster = s.rc.roster := by simp [State.enterRoute]
@[simp] theorem State.enterRoute_rc_wndw (s : State) : s.enterRoute.rc.wndw = s.rc.wndw := by simp [State.enterRoute]
@[simp] theorem State.enterRoute_rc_policy (s : State) : s.enterRoute.rc.policy = s.rc.policy := by simp [State.enterRoute]
@[simp] theorem State.enterRoute_rc_handoverInterval (s : State) : s.enterRoute.rc.handoverInterval = s.rc.handoverInterval := by simp [State.enterRoute]
@[simp] theorem State.enterRoute_rc_pairingInterval (s : State) : s.enterRoute.rc.pairingInterval = s.rc.pairingInterval := by simp [State.enterRoute]
@[simp] theorem State.enterRoute_rc_idleInterval (s : State) : s.enterRoute.rc.idleInterval = s.rc.idleInterval := by simp [State.enterRoute]
@[simp] theorem State.enterRoute_rc_reader (s : State) : s.enterRoute.rc.reader = s.rc.reader := by simp [State.enterRoute]
@[simp] theorem State.enterRoute_rc_lamp (s : State) : s.enterRoute.rc.lamp = s.rc.lamp := by simp [State.enterRoute]
@[simp] theorem State.enterRoute_rc_session (s : State) : s.enterRoute.rc.session = s.rc.session := by simp [State.enterRoute]
@[simp] theorem State.enterRoute_rc_guardMark (s : State) : s.enterRoute.rc.guardMark = s.rc.guardMark := by simp [State.enterRoute]
@[simp] theorem State.enterRoute_rc_handoverTimers (s : State) : s.enterRoute.rc.handoverTimers = s.rc.handoverTimers := by simp [State.enterRoute]

/-! ### workOn -/
@[simp] theorem State.workOn_trt (s : State) : s.workOn.trt = s.trt := by simp [State.workOn]
@[simp] theorem State.workOn_ss (s : State) : s.workOn.ss = s.ss := by simp [State.workOn]
@[simp] theorem State.workOn_pins (s : State) : s.workOn.pins = s.pins := by simp [State.workOn]
@[simp] theorem State.workOn_resetHeld (s : State) : s.workOn.resetHeld = s.resetHeld := by simp [State.workOn]
@[simp] theorem State.workOn_pending (s : State) : s.workOn.pending = s.pending := by simp [State.workOn]
@[simp] theorem State.workOn_cr_tagIndex (s : State) : s.workOn.cr.tagIndex = s.cr.tagIndex := by simp [State.workOn]
@[simp] theorem State.workOn_cr_receiptCounter (s : State) : s.workOn.cr.receiptCounter = s.cr.receiptCounter := by simp [State.workOn]
@[simp] theorem State.workOn_cr_lists (s : State) : s.workOn.cr.lists = s.cr.lists := by simp [State.workOn]
@[simp] theorem State.workOn_cr_night (s : State) : s.workOn.cr.night = s.cr.night := by simp [State.workOn]
@[simp] theorem State.workOn_cr_totals (s : State) : s.workOn.cr.totals = s.cr.totals := by simp [State.workOn]
@[simp] theorem State.workOn_cr_lossPending (s : State) : s.workOn.cr.lossPending = s.cr.lossPending := by simp [State.workOn]
@[simp] theorem State.workOn_cr_storeValid (s : State) : s.workOn.cr.storeValid = s.cr.storeValid := by simp [State.workOn]
@[simp] theorem State.workOn_cr_graceInterval (s : State) : s.workOn.cr.graceInterval = s.cr.graceInterval := by simp [State.workOn]
@[simp] theorem State.workOn_wau_denoms (s : State) : s.workOn.wau.denoms = s.wau.denoms := by simp [State.workOn]
@[simp] theorem State.workOn_wau_tols (s : State) : s.workOn.wau.tols = s.wau.tols := by simp [State.workOn]
@[simp] theorem State.workOn_pcc_pockets (s : State) : s.workOn.pcc.pockets = s.pcc.pockets := by simp [State.workOn]
@[simp] theorem State.workOn_pcc_position (s : State) : s.workOn.pcc.position = s.pcc.position := by simp [State.workOn]
@[simp] theorem State.workOn_pcc_lastIntake (s : State) : s.workOn.pcc.lastIntake = s.pcc.lastIntake := by simp [State.workOn]
@[simp] theorem State.workOn_pcc_stepInterval (s : State) : s.workOn.pcc.stepInterval = s.pcc.stepInterval := by simp [State.workOn]
@[simp] theorem State.workOn_pcc_settleInterval (s : State) : s.workOn.pcc.settleInterval = s.pcc.settleInterval := by simp [State.workOn]
@[simp] theorem State.workOn_pcc_prePosition (s : State) : s.workOn.pcc.prePosition = s.pcc.prePosition := by simp [State.workOn]
@[simp] theorem State.workOn_pcc_weakOption (s : State) : s.workOn.pcc.weakOption = s.pcc.weakOption := by simp [State.workOn]
@[simp] theorem State.workOn_intake_reader (s : State) : s.workOn.intake.reader = s.intake.reader := by simp [State.workOn]
@[simp] theorem State.workOn_intake_takeUp (s : State) : s.workOn.intake.takeUp = s.intake.takeUp := by simp [State.workOn]
@[simp] theorem State.workOn_ls_branch (s : State) : s.workOn.ls.branch = s.ls.branch := by simp [State.workOn]
@[simp] theorem State.workOn_ls_panel (s : State) : s.workOn.ls.panel = s.ls.panel := by simp [State.workOn]
@[simp] theorem State.workOn_ls_enables (s : State) : s.workOn.ls.enables = s.ls.enables := by simp [State.workOn]
@[simp] theorem State.workOn_ls_clock (s : State) : s.workOn.ls.clock = s.ls.clock := by simp [State.workOn]
@[simp] theorem State.workOn_rc_roster (s : State) : s.workOn.rc.roster = s.rc.roster := by simp [State.workOn]
@[simp] theorem State.workOn_rc_wndw (s : State) : s.workOn.rc.wndw = s.rc.wndw := by simp [State.workOn]
@[simp] theorem State.workOn_rc_policy (s : State) : s.workOn.rc.policy = s.rc.policy := by simp [State.workOn]
@[simp] theorem State.workOn_rc_handoverInterval (s : State) : s.workOn.rc.handoverInterval = s.rc.handoverInterval := by simp [State.workOn]
@[simp] theorem State.workOn_rc_pairingInterval (s : State) : s.workOn.rc.pairingInterval = s.rc.pairingInterval := by simp [State.workOn]
@[simp] theorem State.workOn_rc_idleInterval (s : State) : s.workOn.rc.idleInterval = s.rc.idleInterval := by simp [State.workOn]
@[simp] theorem State.workOn_rc_reader (s : State) : s.workOn.rc.reader = s.rc.reader := by simp [State.workOn]
@[simp] theorem State.workOn_rc_lamp (s : State) : s.workOn.rc.lamp = s.rc.lamp := by simp [State.workOn]
@[simp] theorem State.workOn_rc_session (s : State) : s.workOn.rc.session = s.rc.session := by simp [State.workOn]
@[simp] theorem State.workOn_rc_guardMark (s : State) : s.workOn.rc.guardMark = s.rc.guardMark := by simp [State.workOn]
@[simp] theorem State.workOn_rc_handoverTimers (s : State) : s.workOn.rc.handoverTimers = s.rc.handoverTimers := by simp [State.workOn]

/-! ### raiseDeclared -/
@[simp] theorem State.raiseDeclared_cr (s : State) (w : Location) (n : Nat) : (s.raiseDeclared w n).cr = s.cr := by
  unfold State.raiseDeclared; dsimp only; (repeat' split) <;> simp
@[simp] theorem State.raiseDeclared_trt (s : State) (w : Location) (n : Nat) : (s.raiseDeclared w n).trt = s.trt := by
  unfold State.raiseDeclared; dsimp only; (repeat' split) <;> simp
@[simp] theorem State.raiseDeclared_wau (s : State) (w : Location) (n : Nat) : (s.raiseDeclared w n).wau = s.wau := by
  unfold State.raiseDeclared; dsimp only; (repeat' split) <;> simp
@[simp] theorem State.raiseDeclared_intake (s : State) (w : Location) (n : Nat) : (s.raiseDeclared w n).intake = s.intake := by
  unfold State.raiseDeclared; dsimp only; (repeat' split) <;> simp
@[simp] theorem State.raiseDeclared_rc (s : State) (w : Location) (n : Nat) : (s.raiseDeclared w n).rc = s.rc := by
  unfold State.raiseDeclared; dsimp only; (repeat' split) <;> simp
@[simp] theorem State.raiseDeclared_ls (s : State) (w : Location) (n : Nat) : (s.raiseDeclared w n).ls = s.ls := by
  unfold State.raiseDeclared; dsimp only; (repeat' split) <;> simp
@[simp] theorem State.raiseDeclared_ss (s : State) (w : Location) (n : Nat) : (s.raiseDeclared w n).ss = s.ss := by
  unfold State.raiseDeclared; dsimp only; (repeat' split) <;> simp
@[simp] theorem State.raiseDeclared_pins (s : State) (w : Location) (n : Nat) : (s.raiseDeclared w n).pins = s.pins := by
  unfold State.raiseDeclared; dsimp only; (repeat' split) <;> simp
@[simp] theorem State.raiseDeclared_resetHeld (s : State) (w : Location) (n : Nat) : (s.raiseDeclared w n).resetHeld = s.resetHeld := by
  unfold State.raiseDeclared; dsimp only; (repeat' split) <;> simp
@[simp] theorem State.raiseDeclared_pending (s : State) (w : Location) (n : Nat) : (s.raiseDeclared w n).pending = s.pending := by
  unfold State.raiseDeclared; dsimp only; (repeat' split) <;> simp
@[simp] theorem State.raiseDeclared_pcc_hold (s : State) (w : Location) (n : Nat) : (s.raiseDeclared w n).pcc.hold = s.pcc.hold := by
  unfold State.raiseDeclared; dsimp only; (repeat' split) <;> simp
@[simp] theorem State.raiseDeclared_pcc_drum (s : State) (w : Location) (n : Nat) : (s.raiseDeclared w n).pcc.drum = s.pcc.drum := by
  unfold State.raiseDeclared; dsimp only; (repeat' split) <;> simp
@[simp] theorem State.raiseDeclared_pcc_position (s : State) (w : Location) (n : Nat) : (s.raiseDeclared w n).pcc.position = s.pcc.position := by
  unfold State.raiseDeclared; dsimp only; (repeat' split) <;> simp
@[simp] theorem State.raiseDeclared_pcc_lastDir (s : State) (w : Location) (n : Nat) : (s.raiseDeclared w n).pcc.lastDir = s.pcc.lastDir := by
  unfold State.raiseDeclared; dsimp only; (repeat' split) <;> simp
@[simp] theorem State.raiseDeclared_pcc_queue (s : State) (w : Location) (n : Nat) : (s.raiseDeclared w n).pcc.queue = s.pcc.queue := by
  unfold State.raiseDeclared; dsimp only; (repeat' split) <;> simp
@[simp] theorem State.raiseDeclared_pcc_lastIntake (s : State) (w : Location) (n : Nat) : (s.raiseDeclared w n).pcc.lastIntake = s.pcc.lastIntake := by
  unfold State.raiseDeclared; dsimp only; (repeat' split) <;> simp
@[simp] theorem State.raiseDeclared_pcc_stepInterval (s : State) (w : Location) (n : Nat) : (s.raiseDeclared w n).pcc.stepInterval = s.pcc.stepInterval := by
  unfold State.raiseDeclared; dsimp only; (repeat' split) <;> simp
@[simp] theorem State.raiseDeclared_pcc_settleInterval (s : State) (w : Location) (n : Nat) : (s.raiseDeclared w n).pcc.settleInterval = s.pcc.settleInterval := by
  unfold State.raiseDeclared; dsimp only; (repeat' split) <;> simp
@[simp] theorem State.raiseDeclared_pcc_prePosition (s : State) (w : Location) (n : Nat) : (s.raiseDeclared w n).pcc.prePosition = s.pcc.prePosition := by
  unfold State.raiseDeclared; dsimp only; (repeat' split) <;> simp
@[simp] theorem State.raiseDeclared_pcc_weakOption (s : State) (w : Location) (n : Nat) : (s.raiseDeclared w n).pcc.weakOption = s.pcc.weakOption := by
  unfold State.raiseDeclared; dsimp only; (repeat' split) <;> simp

/-! ### attach -/
@[simp] theorem State.attach_trt (s : State) (r : Record) (a : Advice) (m : AdviceMark) : (s.attach r a m).trt = s.trt := by simp [State.attach]
@[simp] theorem State.attach_intake (s : State) (r : Record) (a : Advice) (m : AdviceMark) : (s.attach r a m).intake = s.intake := by simp [State.attach]
@[simp] theorem State.attach_rc (s : State) (r : Record) (a : Advice) (m : AdviceMark) : (s.attach r a m).rc = s.rc := by simp [State.attach]
@[simp] theorem State.attach_ls (s : State) (r : Record) (a : Advice) (m : AdviceMark) : (s.attach r a m).ls = s.ls := by simp [State.attach]
@[simp] theorem State.attach_ss (s : State) (r : Record) (a : Advice) (m : AdviceMark) : (s.attach r a m).ss = s.ss := by simp [State.attach]
@[simp] theorem State.attach_pins (s : State) (r : Record) (a : Advice) (m : AdviceMark) : (s.attach r a m).pins = s.pins := by simp [State.attach]
@[simp] theorem State.attach_resetHeld (s : State) (r : Record) (a : Advice) (m : AdviceMark) : (s.attach r a m).resetHeld = s.resetHeld := by simp [State.attach]
@[simp] theorem State.attach_pending (s : State) (r : Record) (a : Advice) (m : AdviceMark) : (s.attach r a m).pending = s.pending := by simp [State.attach]
@[simp] theorem State.attach_cr_tagIndex (s : State) (r : Record) (a : Advice) (m : AdviceMark) : (s.attach r a m).cr.tagIndex = s.cr.tagIndex := by simp [State.attach]
@[simp] theorem State.attach_cr_receiptCounter (s : State) (r : Record) (a : Advice) (m : AdviceMark) : (s.attach r a m).cr.receiptCounter = s.cr.receiptCounter := by simp [State.attach]
@[simp] theorem State.attach_cr_lists (s : State) (r : Record) (a : Advice) (m : AdviceMark) : (s.attach r a m).cr.lists = s.cr.lists := by simp [State.attach]
@[simp] theorem State.attach_cr_night (s : State) (r : Record) (a : Advice) (m : AdviceMark) : (s.attach r a m).cr.night = s.cr.night := by simp [State.attach]
@[simp] theorem State.attach_cr_lossPending (s : State) (r : Record) (a : Advice) (m : AdviceMark) : (s.attach r a m).cr.lossPending = s.cr.lossPending := by simp [State.attach]
@[simp] theorem State.attach_cr_storeValid (s : State) (r : Record) (a : Advice) (m : AdviceMark) : (s.attach r a m).cr.storeValid = s.cr.storeValid := by simp [State.attach]
@[simp] theorem State.attach_cr_graceInterval (s : State) (r : Record) (a : Advice) (m : AdviceMark) : (s.attach r a m).cr.graceInterval = s.cr.graceInterval := by simp [State.attach]
@[simp] theorem State.attach_wau_denoms (s : State) (r : Record) (a : Advice) (m : AdviceMark) : (s.attach r a m).wau.denoms = s.wau.denoms := by simp [State.attach]
@[simp] theorem State.attach_wau_tols (s : State) (r : Record) (a : Advice) (m : AdviceMark) : (s.attach r a m).wau.tols = s.wau.tols := by simp [State.attach]
@[simp] theorem State.attach_pcc_hold (s : State) (r : Record) (a : Advice) (m : AdviceMark) : (s.attach r a m).pcc.hold = s.pcc.hold := by simp [State.attach]
@[simp] theorem State.attach_pcc_drum (s : State) (r : Record) (a : Advice) (m : AdviceMark) : (s.attach r a m).pcc.drum = s.pcc.drum := by simp [State.attach]
@[simp] theorem State.attach_pcc_position (s : State) (r : Record) (a : Advice) (m : AdviceMark) : (s.attach r a m).pcc.position = s.pcc.position := by simp [State.attach]
@[simp] theorem State.attach_pcc_lastDir (s : State) (r : Record) (a : Advice) (m : AdviceMark) : (s.attach r a m).pcc.lastDir = s.pcc.lastDir := by simp [State.attach]
@[simp] theorem State.attach_pcc_queue (s : State) (r : Record) (a : Advice) (m : AdviceMark) : (s.attach r a m).pcc.queue = s.pcc.queue := by simp [State.attach]
@[simp] theorem State.attach_pcc_lastIntake (s : State) (r : Record) (a : Advice) (m : AdviceMark) : (s.attach r a m).pcc.lastIntake = s.pcc.lastIntake := by simp [State.attach]
@[simp] theorem State.attach_pcc_stepInterval (s : State) (r : Record) (a : Advice) (m : AdviceMark) : (s.attach r a m).pcc.stepInterval = s.pcc.stepInterval := by simp [State.attach]
@[simp] theorem State.attach_pcc_settleInterval (s : State) (r : Record) (a : Advice) (m : AdviceMark) : (s.attach r a m).pcc.settleInterval = s.pcc.settleInterval := by simp [State.attach]
@[simp] theorem State.attach_pcc_prePosition (s : State) (r : Record) (a : Advice) (m : AdviceMark) : (s.attach r a m).pcc.prePosition = s.pcc.prePosition := by simp [State.attach]
@[simp] theorem State.attach_pcc_weakOption (s : State) (r : Record) (a : Advice) (m : AdviceMark) : (s.attach r a m).pcc.weakOption = s.pcc.weakOption := by simp [State.attach]

/-! ### takeValue -/
@[simp] theorem State.takeValue_trt (s : State) (v : Int) (b : Bool) : (s.takeValue v b).trt = s.trt := by simp [State.takeValue]
@[simp] theorem State.takeValue_ss (s : State) (v : Int) (b : Bool) : (s.takeValue v b).ss = s.ss := by simp [State.takeValue]
@[simp] theorem State.takeValue_pins (s : State) (v : Int) (b : Bool) : (s.takeValue v b).pins = s.pins := by simp [State.takeValue]
@[simp] theorem State.takeValue_resetHeld (s : State) (v : Int) (b : Bool) : (s.takeValue v b).resetHeld = s.resetHeld := by simp [State.takeValue]
@[simp] theorem State.takeValue_pending (s : State) (v : Int) (b : Bool) : (s.takeValue v b).pending = s.pending := by simp [State.takeValue]
@[simp] theorem State.takeValue_cr_tagIndex (s : State) (v : Int) (b : Bool) : (s.takeValue v b).cr.tagIndex = s.cr.tagIndex := by simp [State.takeValue]
@[simp] theorem State.takeValue_cr_receiptCounter (s : State) (v : Int) (b : Bool) : (s.takeValue v b).cr.receiptCounter = s.cr.receiptCounter := by simp [State.takeValue]
@[simp] theorem State.takeValue_cr_lists (s : State) (v : Int) (b : Bool) : (s.takeValue v b).cr.lists = s.cr.lists := by simp [State.takeValue]
@[simp] theorem State.takeValue_cr_night (s : State) (v : Int) (b : Bool) : (s.takeValue v b).cr.night = s.cr.night := by simp [State.takeValue]
@[simp] theorem State.takeValue_cr_totals (s : State) (v : Int) (b : Bool) : (s.takeValue v b).cr.totals = s.cr.totals := by simp [State.takeValue]
@[simp] theorem State.takeValue_cr_lossPending (s : State) (v : Int) (b : Bool) : (s.takeValue v b).cr.lossPending = s.cr.lossPending := by simp [State.takeValue]
@[simp] theorem State.takeValue_cr_storeValid (s : State) (v : Int) (b : Bool) : (s.takeValue v b).cr.storeValid = s.cr.storeValid := by simp [State.takeValue]
@[simp] theorem State.takeValue_cr_graceInterval (s : State) (v : Int) (b : Bool) : (s.takeValue v b).cr.graceInterval = s.cr.graceInterval := by simp [State.takeValue]
@[simp] theorem State.takeValue_wau_denoms (s : State) (v : Int) (b : Bool) : (s.takeValue v b).wau.denoms = s.wau.denoms := by simp [State.takeValue]
@[simp] theorem State.takeValue_wau_tols (s : State) (v : Int) (b : Bool) : (s.takeValue v b).wau.tols = s.wau.tols := by simp [State.takeValue]
@[simp] theorem State.takeValue_pcc_pockets (s : State) (v : Int) (b : Bool) : (s.takeValue v b).pcc.pockets = s.pcc.pockets := by simp [State.takeValue]
@[simp] theorem State.takeValue_pcc_position (s : State) (v : Int) (b : Bool) : (s.takeValue v b).pcc.position = s.pcc.position := by simp [State.takeValue]
@[simp] theorem State.takeValue_pcc_lastIntake (s : State) (v : Int) (b : Bool) : (s.takeValue v b).pcc.lastIntake = s.pcc.lastIntake := by simp [State.takeValue]
@[simp] theorem State.takeValue_pcc_stepInterval (s : State) (v : Int) (b : Bool) : (s.takeValue v b).pcc.stepInterval = s.pcc.stepInterval := by simp [State.takeValue]
@[simp] theorem State.takeValue_pcc_settleInterval (s : State) (v : Int) (b : Bool) : (s.takeValue v b).pcc.settleInterval = s.pcc.settleInterval := by simp [State.takeValue]
@[simp] theorem State.takeValue_pcc_prePosition (s : State) (v : Int) (b : Bool) : (s.takeValue v b).pcc.prePosition = s.pcc.prePosition := by simp [State.takeValue]
@[simp] theorem State.takeValue_pcc_weakOption (s : State) (v : Int) (b : Bool) : (s.takeValue v b).pcc.weakOption = s.pcc.weakOption := by simp [State.takeValue]
@[simp] theorem State.takeValue_intake_reader (s : State) (v : Int) (b : Bool) : (s.takeValue v b).intake.reader = s.intake.reader := by simp [State.takeValue]
@[simp] theorem State.takeValue_intake_takeUp (s : State) (v : Int) (b : Bool) : (s.takeValue v b).intake.takeUp = s.intake.takeUp := by simp [State.takeValue]
@[simp] theorem State.takeValue_ls_branch (s : State) (v : Int) (b : Bool) : (s.takeValue v b).ls.branch = s.ls.branch := by simp [State.takeValue]
@[simp] theorem State.takeValue_ls_panel (s : State) (v : Int) (b : Bool) : (s.takeValue v b).ls.panel = s.ls.panel := by simp [State.takeValue]
@[simp] theorem State.takeValue_ls_enables (s : State) (v : Int) (b : Bool) : (s.takeValue v b).ls.enables = s.ls.enables := by simp [State.takeValue]
@[simp] theorem State.takeValue_ls_clock (s : State) (v : Int) (b : Bool) : (s.takeValue v b).ls.clock = s.ls.clock := by simp [State.takeValue]
@[simp] theorem State.takeValue_rc_roster (s : State) (v : Int) (b : Bool) : (s.takeValue v b).rc.roster = s.rc.roster := by simp [State.takeValue]
@[simp] theorem State.takeValue_rc_wndw (s : State) (v : Int) (b : Bool) : (s.takeValue v b).rc.wndw = s.rc.wndw := by simp [State.takeValue]
@[simp] theorem State.takeValue_rc_policy (s : State) (v : Int) (b : Bool) : (s.takeValue v b).rc.policy = s.rc.policy := by simp [State.takeValue]
@[simp] theorem State.takeValue_rc_handoverInterval (s : State) (v : Int) (b : Bool) : (s.takeValue v b).rc.handoverInterval = s.rc.handoverInterval := by simp [State.takeValue]
@[simp] theorem State.takeValue_rc_pairingInterval (s : State) (v : Int) (b : Bool) : (s.takeValue v b).rc.pairingInterval = s.rc.pairingInterval := by simp [State.takeValue]
@[simp] theorem State.takeValue_rc_idleInterval (s : State) (v : Int) (b : Bool) : (s.takeValue v b).rc.idleInterval = s.rc.idleInterval := by simp [State.takeValue]
@[simp] theorem State.takeValue_rc_reader (s : State) (v : Int) (b : Bool) : (s.takeValue v b).rc.reader = s.rc.reader := by simp [State.takeValue]
@[simp] theorem State.takeValue_rc_lamp (s : State) (v : Int) (b : Bool) : (s.takeValue v b).rc.lamp = s.rc.lamp := by simp [State.takeValue]
@[simp] theorem State.takeValue_rc_session (s : State) (v : Int) (b : Bool) : (s.takeValue v b).rc.session = s.rc.session := by simp [State.takeValue]
@[simp] theorem State.takeValue_rc_guardMark (s : State) (v : Int) (b : Bool) : (s.takeValue v b).rc.guardMark = s.rc.guardMark := by simp [State.takeValue]
@[simp] theorem State.takeValue_rc_handoverTimers (s : State) (v : Int) (b : Bool) : (s.takeValue v b).rc.handoverTimers = s.rc.handoverTimers := by simp [State.takeValue]

/-! ### completeSave -/
@[simp] theorem State.completeSave_cr (s : State) (a : Bool) (d : List (Nat × Byte)) : (s.completeSave a d).cr = s.cr := by
  unfold State.completeSave; dsimp only; (repeat' split) <;> simp
@[simp] theorem State.completeSave_trt (s : State) (a : Bool) (d : List (Nat × Byte)) : (s.completeSave a d).trt = s.trt := by
  unfold State.completeSave; dsimp only; (repeat' split) <;> simp
@[simp] theorem State.completeSave_wau (s : State) (a : Bool) (d : List (Nat × Byte)) : (s.completeSave a d).wau = s.wau := by
  unfold State.completeSave; dsimp only; (repeat' split) <;> simp
@[simp] theorem State.completeSave_pcc (s : State) (a : Bool) (d : List (Nat × Byte)) : (s.completeSave a d).pcc = s.pcc := by
  unfold State.completeSave; dsimp only; (repeat' split) <;> simp
@[simp] theorem State.completeSave_intake (s : State) (a : Bool) (d : List (Nat × Byte)) : (s.completeSave a d).intake = s.intake := by
  unfold State.completeSave; dsimp only; (repeat' split) <;> simp
@[simp] theorem State.completeSave_rc (s : State) (a : Bool) (d : List (Nat × Byte)) : (s.completeSave a d).rc = s.rc := by
  unfold State.completeSave; dsimp only; (repeat' split) <;> simp
@[simp] theorem State.completeSave_pins (s : State) (a : Bool) (d : List (Nat × Byte)) : (s.completeSave a d).pins = s.pins := by
  unfold State.completeSave; dsimp only; (repeat' split) <;> simp
@[simp] theorem State.completeSave_resetHeld (s : State) (a : Bool) (d : List (Nat × Byte)) : (s.completeSave a d).resetHeld = s.resetHeld := by
  unfold State.completeSave; dsimp only; (repeat' split) <;> simp
@[simp] theorem State.completeSave_pending (s : State) (a : Bool) (d : List (Nat × Byte)) : (s.completeSave a d).pending = s.pending := by
  unfold State.completeSave; dsimp only; (repeat' split) <;> simp
@[simp] theorem State.completeSave_ls_branch (s : State) (a : Bool) (d : List (Nat × Byte)) : (s.completeSave a d).ls.branch = s.ls.branch := by
  unfold State.completeSave; dsimp only; (repeat' split) <;> simp
@[simp] theorem State.completeSave_ls_panel (s : State) (a : Bool) (d : List (Nat × Byte)) : (s.completeSave a d).ls.panel = s.ls.panel := by
  unfold State.completeSave; dsimp only; (repeat' split) <;> simp
@[simp] theorem State.completeSave_ls_enables (s : State) (a : Bool) (d : List (Nat × Byte)) : (s.completeSave a d).ls.enables = s.ls.enables := by
  unfold State.completeSave; dsimp only; (repeat' split) <;> simp
@[simp] theorem State.completeSave_ls_clock (s : State) (a : Bool) (d : List (Nat × Byte)) : (s.completeSave a d).ls.clock = s.ls.clock := by
  unfold State.completeSave; dsimp only; (repeat' split) <;> simp
@[simp] theorem State.completeSave_ss_straps (s : State) (a : Bool) (d : List (Nat × Byte)) : (s.completeSave a d).ss.straps = s.ss.straps := by
  unfold State.completeSave; dsimp only; (repeat' split) <;> simp
@[simp] theorem State.completeSave_ss_outcome (s : State) (a : Bool) (d : List (Nat × Byte)) : (s.completeSave a d).ss.outcome = s.ss.outcome := by
  unfold State.completeSave; dsimp only; (repeat' split) <;> simp
@[simp] theorem State.completeSave_ss_notConfigured (s : State) (a : Bool) (d : List (Nat × Byte)) : (s.completeSave a d).ss.notConfigured = s.ss.notConfigured := by
  unfold State.completeSave; dsimp only; (repeat' split) <;> simp
@[simp] theorem State.completeSave_ss_saves (s : State) (a : Bool) (d : List (Nat × Byte)) : (s.completeSave a d).ss.saves = s.ss.saves := by
  unfold State.completeSave; dsimp only; (repeat' split) <;> simp

end Sys2Proof.Machine
end

