-- ==== Sys2Proof/Laws/Memory.lean ====
section
/-! SUPPORT. The EEPROM: what a read gives after a write, and that every operation keeps the canonical form. -/

namespace Sys2Proof.Machine

@[simp] theorem Memory.read_nil (a : Nat) : Memory.read [] a = Memory.blank := rfl

theorem Memory.read_cons (c : Nat) (x : Byte) (m : Memory) (a : Nat) :
    Memory.read ((c, x) :: m) a = if c = a then x else m.read a := rfl

theorem Memory.wf_cons (c : Nat) (x : Byte) (m : Memory) :
    Memory.wf ((c, x) :: m) = true ↔
      (c < Memory.size ∧ x ≠ Memory.blank ∧ (∀ e ∈ m, c < e.1) ∧ Memory.wf m = true) := by
  simp [Memory.wf, and_assoc]

/-- An address below every cell reads as a byte that nothing has written. -/
theorem Memory.read_below (m : Memory) (a : Nat) (h : ∀ e ∈ m, a < e.1) : m.read a = Memory.blank := by
  induction m with
  | nil => rfl
  | cons e m ih =>
    obtain ⟨c, x⟩ := e
    have hc : a < c := h (c, x) (by simp)
    rw [Memory.read_cons, if_neg (by omega)]
    exact ih fun e he => h e (by simp [he])

theorem Memory.read_cell (a : Nat) (b : Byte) (m : Memory) (h : ∀ e ∈ m, a < e.1) (x : Nat) :
    (Memory.cell a b m).read x = if a = x then b else m.read x := by
  unfold Memory.cell
  split
  · split
    · subst_vars; exact Memory.read_below m _ h
    · rfl
  · rfl

/-- Read after write: the byte written at its address, every other byte as it was. -/
theorem Memory.read_write (m : Memory) (hm : m.wf = true) (a : Nat) (b : Byte) (x : Nat) :
    (m.write a b).read x = if a = x then b else m.read x := by
  induction m with
  | nil => exact Memory.read_cell a b [] (by simp) x
  | cons e m ih =>
    obtain ⟨c, y⟩ := e
    obtain ⟨_, _, hlt, hm'⟩ := (Memory.wf_cons c y m).1 hm
    simp only [Memory.write]
    split
    · refine Memory.read_cell a b _ (fun e he => ?_) x
      rcases List.mem_cons.1 he with rfl | he
      · assumption
      · have := hlt e he; omega
    · split
      · subst_vars
        rw [Memory.read_cell _ b m hlt, Memory.read_cons]
        split <;> rfl
      · rw [Memory.read_cons, Memory.read_cons, ih hm']
        split <;> split <;> first | rfl | omega

/-- What a write lists. -/
theorem Memory.mem_write (m : Memory) (a : Nat) (b : Byte) (e : Nat × Byte) (h : e ∈ m.write a b) :
    e = (a, b) ∨ e ∈ m := by
  induction m with
  | nil =>
    simp only [Memory.write, Memory.cell] at h
    split at h <;> simp_all
  | cons c m ih =>
    obtain ⟨c, y⟩ := c
    simp only [Memory.write, Memory.cell] at h
    split at h
    · split at h <;> simp_all
    · split at h
      · split at h <;> simp_all
        rcases h with h | h <;> simp [h]
      · rcases List.mem_cons.1 h with h | h
        · simp [h]
        · rcases ih h with h | h <;> simp [h]

theorem Memory.wf_cell (a : Nat) (b : Byte) (m : Memory) (ha : a < Memory.size) (h : ∀ e ∈ m, a < e.1)
    (hm : m.wf = true) : (Memory.cell a b m).wf = true := by
  unfold Memory.cell
  split
  · exact hm
  · exact (Memory.wf_cons a b m).2 ⟨ha, ‹_›, h, hm⟩

/-- A write keeps the canonical form. -/
theorem Memory.wf_write (m : Memory) (hm : m.wf = true) (a : Nat) (b : Byte) (ha : a < Memory.size) :
    (m.write a b).wf = true := by
  induction m with
  | nil => exact Memory.wf_cell a b [] ha (by simp) rfl
  | cons e m ih =>
    obtain ⟨c, y⟩ := e
    obtain ⟨hc, hy, hlt, hm'⟩ := (Memory.wf_cons c y m).1 hm
    simp only [Memory.write]
    split
    · refine Memory.wf_cell a b _ ha (fun e he => ?_) hm
      rcases List.mem_cons.1 he with rfl | he
      · assumption
      · have := hlt e he; omega
    · split
      · subst_vars; exact Memory.wf_cell _ b m hc hlt hm'
      · refine (Memory.wf_cons c y _).2 ⟨hc, hy, fun e he => ?_, ih hm'⟩
        rcases Memory.mem_write m a b e he with rfl | he
        · simp only; omega
        · exact hlt e he

/-- Writes inside the part keep the canonical form. -/
theorem Memory.wf_writeAll (m : Memory) (hm : m.wf = true) (ws : List (Nat × Byte))
    (h : ∀ w ∈ ws, w.1 < Memory.size) : (m.writeAll ws).wf = true := by
  induction ws generalizing m with
  | nil => exact hm
  | cons w ws ih =>
    exact ih _ (Memory.wf_write m hm w.1 w.2 (h w (by simp))) fun w' hw => h w' (by simp [hw])

/-- Every write of a save is inside the image (R177, R181). -/
theorem saveWrites_lt (copy : List Byte) (w : Nat × Byte) (h : w ∈ saveWrites copy) : w.1 < imageLength := by
  simp only [saveWrites, List.mem_cons, List.mem_append, List.mem_map, List.mem_range] at h
  rcases h with rfl | ⟨i, hi, rfl⟩ | rfl | h
  · decide
  · simp only [imageLength] at *; omega
  · decide
  · cases h

/-- A save keeps the canonical form, whatever bytes the EEPROM holds otherwise than written (R182). -/
theorem savedMemory_wf (m : Memory) (hm : m.wf = true) (copy : List Byte) (differs : List (Nat × Byte)) :
    (savedMemory m copy differs).wf = true := by
  refine Memory.wf_writeAll _ (Memory.wf_writeAll m hm _ fun w hw => ?_) _ fun w hw => ?_
  · have := saveWrites_lt copy w hw; simp only [imageLength, Memory.size] at *; omega
  · have := of_decide_eq_true (List.mem_filter.1 hw).2; simp only [imageLength, Memory.size] at *; omega

/-- A restart, with a save cut short, keeps the canonical form (R182). -/
theorem eepromAfter_wf (x : Settings) (hm : Memory.wf x.eeprom = true) (n : Nat) : (eepromAfter x n).wf = true := by
  unfold eepromAfter
  split
  · exact hm
  · refine Memory.wf_writeAll _ hm _ fun w hw => ?_
    have := saveWrites_lt _ w (List.mem_of_mem_take hw)
    simp only [imageLength, Memory.size] at *; omega

end Sys2Proof.Machine
end

