-- ==== Sys2Proof/Laws/Ops.lean ====
section
/-! SUPPORT. What the shared operations do, said once: taking a request or an event, looking a record or a staff id up,
and the test of the chute. -/

namespace Sys2Proof.Machine

open Sys2Proof.Safety

/-! ## Requests and events -/

theorem whenRunning_running {s : State} (h : s.resetHeld = false) (k : State → Result) : whenRunning s k = k s := by
  simp [whenRunning, h]

theorem whenRunning_held {s : State} (h : s.resetHeld = true) (k : State → Result) : whenRunning s k = .next s := by
  simp [whenRunning, h]

theorem takeEvent_running {s : State} (h : s.resetHeld = false) (f : State → State) : takeEvent s f = .next (f s) :=
  whenRunning_running h _

/-- An event answers a next state, always: its effect, or nothing while RESET_N is held. -/
theorem takeEvent_eq (s : State) (f : State → State) : takeEvent s f = .next (if s.resetHeld then s else f s) := by
  unfold takeEvent whenRunning; split <;> rfl

/-- A request answers a next state, always: nothing while the module or the line does not take it, and otherwise its
owner's effect with the reply. -/
theorem takeRequest_eq (s : State) (l : Line) (name : BitVec 32) (owner : State → State × Answer) :
    takeRequest s l name owner =
      .next (if s.resetHeld = false ∧ s.listens l = true then (owner s).1.answer l name (owner s).2 else s) := by
  unfold takeRequest whenRunning
  cases h1 : s.resetHeld <;> cases h2 : s.listens l <;> simp [h2]

theorem listens_branch {s : State} (h : branchIdle s) : s.listens .branch = true := by
  obtain ⟨_, h2, h3⟩ := h
  simp [State.listens, State.replying, State.line, State.address, h2, h3]

theorem listens_panel {s : State} (h : panelIdle s) : s.listens .panel = true := by
  obtain ⟨_, h2⟩ := h
  simp [State.listens, State.replying, State.line, State.address, h2]

/-- A branch-link request on a free line. -/
theorem takeRequest_branch {s : State} (h : branchIdle s) (r : ReqName) (owner : State → State × Answer) :
    takeRequest s .branch r.code owner = .next (branchReply (owner s).1 r (owner s).2.word (owner s).2.data) := by
  rw [takeRequest_eq, if_pos ⟨h.1, listens_branch h⟩]; rfl

/-- A panel request on a free line acts with the idle timer of an OPEN session restarted (R141). -/
theorem takePanel_panel {s : State} (h : panelIdle s) (r : ReqName) (owner : State → State × Answer) :
    takePanel s r.code owner =
      .next (panelReply (owner s.restartIdle).1 r (owner s.restartIdle).2.word (owner s.restartIdle).2.data) := by
  rw [takePanel, takeRequest_eq, if_pos ⟨h.1, listens_panel h⟩]; rfl

/-- A request that writes a setting (R181). -/
theorem writeSetting_branch {s : State} (h : branchIdle s) (r : ReqName) (owner : State → State × Answer) :
    writeSetting s r.code owner =
      .next (if s.isSaving then branchReply s r .busy []
             else branchReply (owner s).1 r (owner s).2.word (owner s).2.data) := by
  rw [writeSetting, takeRequest_branch h]
  cases hs : s.isSaving <;> simp [refuse]

/-- The bytes of an outcome word are its four characters (R164). -/
theorem outcomeWord_bytes (w : OutcomeWord) : w.bytes = ascii (wordText w) := by cases w <;> decide

/-- What a line is driven with once a reply has begun there (R159, R163, R164). -/
theorem replyFrame_answer {s : State} {l : Line} {a : Byte} (h : s.resetHeld = false) (ha : s.address l = some a)
    (name : BitVec 32) (x : Answer) : (s.answer l name x).replyFrame l = some (wireFrame a name (x.word.bytes ++ x.data)) := by
  have h2 : (s.answer l name x).address l = some a := by rw [← ha]; cases l <;> rfl
  have h3 : (s.answer l name x).resetHeld = false := by rw [State.answer_resetHeld, h]
  simp only [State.replyFrame, h2, h3]
  simp [State.answer, Reply.frame, Answer.body]

/-! ## Looking records and staff up -/

theorem findReceipt_none {l : List Record} {n : Nat} (h : ∀ r ∈ l, r.receipt ≠ n) : findReceipt l n = none := by
  simpa [findReceipt] using h

theorem findReceipt_some {l : List Record} {r : Record} (h : r ∈ l) (u : ∀ x ∈ l, x.receipt = r.receipt → x = r) :
    findReceipt l r.receipt = some r := by
  unfold findReceipt
  cases hf : l.find? (fun x => x.receipt == r.receipt) with
  | none => rw [List.find?_eq_none] at hf; simpa using hf r h
  | some x => rw [u x (List.mem_of_find?_eq_some hf) (by simpa using List.find?_some hf)]

/-- The record that alone holds its receipt is found by it. -/
theorem record_of_holds {s : State} {r : Record} (h : holds s r) : s.record r.receipt = some r := findReceipt_some h.1 h.2

theorem claimant_of_claims {s : State} {t : Tag} {r : Record} (h : claims s t r) : s.claimant t = some r := by
  simp [State.claimant, State.indexed, h.1, record_of_holds h.2]

theorem claimant_of_unclaimed {s : State} {t : Tag} (h : unclaimed s t) : s.claimant t = none := by
  unfold unclaimed at h; simp [State.claimant, State.indexed, h]

theorem intakeRecord_of_inIntake {s : State} {r : Record} (h : inIntake s r) : s.intakeRecord = some r := by
  unfold State.intakeRecord
  cases hf : s.cr.records.find? (fun x => x.state == .intake) with
  | none => rw [List.find?_eq_none] at hf; simpa [h.2.1] using hf r h.1.1
  | some x => rw [h.2.2 x (List.mem_of_find?_eq_some hf) (by simpa using List.find?_some hf)]

theorem role_of_hasRole {s : State} {id : BitVec 24} {r : Role} (h : hasRole s id r) : s.role id = some r := by
  obtain ⟨b, a, m, h1, h2, h3, h4⟩ := h
  have hb : b.find? (fun m => m.id == id.toNat) = none := by simpa using h4
  rw [State.role, h1, List.find?_append, hb]
  simp [h2, h3]

theorem role_of_notRostered {s : State} {id : BitVec 24} (h : notRostered s id) : s.role id = none := by
  unfold notRostered at h; simpa [State.role] using h

/-! ## Flags and the chute -/

/-- What a raise does (R171, R174). -/
theorem raise_eq_raised (s : State) (f : StatusFlag) : s.raise f = raised s f := rfl

/-- The conditions of R95 but the sixth, on the fields they read. -/
theorem chuteConditions_iff (s : State) :
    s.chuteConditions = true ↔ (s.cr.records.length < 384 ∧
      (s.pcc.hold = some ⟨0, 4⟩ ∨ s.pcc.pockets[0].used + s.pcc.heldUnits 0 + 4 ≤ s.pcc.pockets[0].capacity) ∧
      (∀ x, s.pcc.drum ≠ .homing x) ∧ s.pcc.drum ≠ .fault ∧ s.ss.notConfigured = false ∧ s.cr.lossPending = false) := by
  have h1 : 1 ≤ s.freeSlots ↔ s.cr.records.length < 384 := by simp [State.freeSlots, Config.slots]; omega
  have h2 : Config.exceptionHold ≤ s.pcc.freeUnits 0 ↔
      s.pcc.pockets[0].used + s.pcc.heldUnits 0 + 4 ≤ s.pcc.pockets[0].capacity := by
    simp [Carousel.freeUnits, Config.exceptionHold]; omega
  simp only [State.chuteConditions, State.exceptionRoom, Bool.and_eq_true, Bool.or_eq_true, decide_eq_true_eq, h1, h2,
    and_assoc]
  cases s.pcc.drum <;> simp [Drum.lost, Config.exceptionHold]

/-- The test of the chute has three results (R95). -/
theorem testChute_cases (s : State) :
    (s.cr.night = .day ∧ s.testChute = (s.setHold none).setIntake { s.intake with phase := .closed }) ∨
    (s.cr.night = .night ∧ s.chuteConditions = true ∧
      s.testChute = (s.setHold (some ⟨0, 4⟩)).setIntake { s.intake with phase := .ready }) ∨
    (s.cr.night = .night ∧ s.chuteConditions = false ∧
      s.testChute = ((s.setHold none).setIntake { s.intake with phase := .shut }).raiseWhen
        (s.intake.phase != .shut) .chuteShut) := by
  unfold State.testChute
  cases h : s.cr.night <;> cases h2 : s.chuteConditions <;> simp [Config.exceptionHold]

/-- A retest is a test in CLOSED, SHUT and READY and nothing elsewhere (R96 to R98). -/
theorem retest_cases (s : State) : s.retest = s ∨ s.retest = s.testChute := by
  unfold State.retest; split <;> simp

end Sys2Proof.Machine
end

