-- ==== Sys2Proof/Tests/Slice0.lean ====
section
/-! SUPPORT. The tests: ill-formed commands refused by each check of WellFormed, worked figures of spec/ (each test names
its source), and for each statement with hypotheses a state and operands that meet them, clause by clause. -/

namespace Sys2Proof.Tests

open Sys2Proof.Machine Sys2Proof.Safety

-- One theorem after the other: each kernel evaluation waits for all declarations before it, and many waiting at once
-- would each take a thread.
set_option Elab.async false

/-! ## Well-formed commands (R159, R168, R177, R181) -/

theorem test_wf_advs : (Instr.advs 5 1 1 (List.replicate 77 ⟨1, 1⟩)).wf = true ∧
    (Instr.advs 5 1 1 (List.replicate 78 ⟨1, 1⟩)).wf = false := by decide +kernel
theorem test_wf_clrs : (Instr.clrs (List.replicate 245 1)).wf = true ∧
    (Instr.clrs (List.replicate 246 1)).wf = false := by decide +kernel
theorem test_wf_cnfm : (Instr.cnfm 1 1 (List.replicate 79 1)).wf = true ∧
    (Instr.cnfm 1 1 (List.replicate 80 1)).wf = false := by decide +kernel
theorem test_wf_rngw : (Instr.rngw 0 ⟨1, 0, 8, 0, 0, 0, 0, List.replicate 234 1⟩).wf = true ∧
    (Instr.rngw 0 ⟨1, 0, 8, 0, 0, 0, 0, List.replicate 235 1⟩).wf = false := by decide +kernel
theorem test_wf_denw : (Instr.denw 0 (List.replicate 40 ⟨1, 1, 1⟩)).wf = true ∧
    (Instr.denw 0 (List.replicate 41 ⟨1, 1, 1⟩)).wf = false := by decide +kernel
theorem test_wf_rost : (Instr.rost (List.replicate 61 ⟨1, 1⟩)).wf = true ∧
    (Instr.rost (List.replicate 62 ⟨1, 1⟩)).wf = false := by decide +kernel
theorem test_wf_polw : (Instr.polw (List.replicate 122 ⟨1, 1⟩)).wf = true ∧
    (Instr.polw (List.replicate 123 ⟨1, 1⟩)).wf = false := by decide +kernel
theorem test_wf_saveCompletion : (Instr.saveCompletion true [(434, 0)]).wf = true ∧
    (Instr.saveCompletion true [(435, 0)]).wf = false := by decide +kernel
theorem test_wf_frameRejected : (Instr.frameRejected .panel ⟨1, 0, List.replicate 246 0, 0⟩).wf = true ∧
    (Instr.frameRejected .panel ⟨1, 0, List.replicate 247 0, 0⟩).wf = false := by decide +kernel
theorem test_wf_restart : (Instr.restart State.reset.ss.straps State.reset.pins true true 436).wf = true ∧
    (Instr.restart State.reset.ss.straps State.reset.pins true true 437).wf = false := by decide +kernel

/-! ## States for the tests -/

/-- The next state of a command, or the same state where it stops. -/
def after (c : Instr) (s : State) : State :=
  match exec c s with
  | .next t => t
  | .fault _ | .refused _ => s

/-- The next state of an outcome. -/
def nextOf (r : Result) : Option State :=
  match r with
  | .next t => some t
  | .fault _ | .refused _ => none

/-- The target and the steps of a drum that is MOVING. -/
def turning : Drum → Option (Fin 21 × Nat × Dir)
  | .moving m _ => some (m.target, m.steps, m.dir)
  | _ => none

/-- A night is open, the chute is READY, the drum stands IDLE at position 0, the session is OPEN; the roster holds a TELLER
11 and a SUPERVISOR 12. -/
def night : State :=
  { State.reset with
    cr := { State.reset.cr with lossPending := false, night := .night }
    pcc := { State.reset.pcc with drum := .idle, position := some 0, lastDir := some .forward, hold := some ⟨0, 4⟩ }
    intake := { phase := .ready }
    rc := { State.reset.rc with roster := [⟨11, .teller⟩, ⟨12, .supervisor⟩], wndw := true, session := .opened 60 }
    ss := { State.reset.ss with straps := ⟨7, false, false⟩, notConfigured := false } }

/-- The tag of a test record. -/
def tagOf (n : Nat) : Tag := BitVec.ofNat 32 (1000 + n)

/-- A test record that claims its tag. -/
def bag (n : Nat) (state : RecState) (location : Location) : Record where
  receipt := n
  tag := some (tagOf n)
  claims := true
  state := state
  location := location
  size := some 2
  mass := some 700

/-- A state with these records, their tags indexed and their receipts listed. -/
def keeping (l : List Record) (s : State) : State :=
  { s with cr := { s.cr with
    records := l
    tagIndex := l.filterMap fun r => if r.claims then r.tag.map fun t => (t, r.receipt) else none
    lists := Vector.ofFn fun p => (l.filter fun r => r.location == .pocket p).map Record.receipt } }

/-- An advice for the tests. -/
def advice : Advice := { customer := 9, lines := [⟨1, 2⟩], declared := 50 }

/-- One record in each state but INTAKE: 3 in GRACE and 4, 5 and 8 HELD in pocket 3, 8 without a tag. -/
def kept : List Record :=
  [{ bag 1 .advised .absent with advice := some advice, mark := .before }, bag 2 .missing .absent,
   { bag 3 .grace (.pocket 3) with grace := some 300 }, bag 4 .held (.pocket 3),
   { bag 5 .held (.pocket 3) with mark := .before, cause := some .audit }, bag 6 .staged .out, bag 7 .overdue .out,
   { bag 8 .held (.pocket 3) with tag := none, claims := false }]

/-- The night with those records; the handover timer of record 6 runs. -/
def safe : State :=
  let s := keeping kept night
  { s with
    rc := { s.rc with handoverTimers := [(6, 30)] }
    wau := { s.wau with denoms := Vector.replicate 16 { face := 100, mass := 10, spread := 5 } } }

/-- A record 9 stands in INTAKE. -/
def dropping (p : Phase) : State :=
  let s := keeping (kept ++ [bag 9 .intake .drawer]) safe
  { s with intake := { s.intake with phase := p } }

/-- Pocket q is open with the hatch opened, and the hatch reader holds a read. -/
def atHatch (q : Fin 21) (x : Option TagRead) : State :=
  { safe with rc := { safe.rc with hatch := .opened, openPocket := some q, reader := { holding := x } } }

/-- The drum in this state at this position. -/
def drumIn (d : Drum) (k : Option (Fin 21)) (s : State) : State := { s with pcc := { s.pcc with drum := d, position := k } }

/-- A move of one step forward from 4 to 5. -/
def move : Move := { target := 5, dir := .forward, steps := 1, stepMs := 250, settleMs := 400, prePosition := false }

/-- A session. -/
def session (x : Session) (s : State) : State := { s with rc := { s.rc with session := x } }

/-- A positioning request. -/
def request (src : Source) (t : Fin 21) (g : Stage) : PosRequest := { source := src, target := t, pocket := 7, stage := g }

/-- These positioning requests stand. -/
def queued (q : List PosRequest) (s : State) : State := { s with pcc := { s.pcc with queue := q } }

/-- A settings copy of 435 bytes for the tests: the format byte and zeros. -/
def copy : List Byte := 1#8 :: List.replicate 434 0#8

/-- SAVING with that copy. -/
def saving : State := { night with ss := { night.ss with saving := some copy } }

/-- A register of n ADVISED records. -/
def advised (n : Nat) : State := keeping ((List.range n).map fun i => bag (i + 1) .advised .absent) safe

/-- A SUPERVISOR's and a TELLER's roles in the test roster. -/
theorem supervisor_12 (s : State) (h : s.rc.roster = [⟨11, .teller⟩, ⟨12, .supervisor⟩]) : hasRole s 12 .supervisor :=
  ⟨[⟨11, .teller⟩], [], ⟨12, .supervisor⟩, h, rfl, rfl, by simp⟩
theorem teller_11 (s : State) (h : s.rc.roster = [⟨11, .teller⟩, ⟨12, .supervisor⟩]) : hasRole s 11 .teller :=
  ⟨[], [⟨12, .supervisor⟩], ⟨11, .teller⟩, h, rfl, rfl, by simp⟩

/-! ## Worked figures of the chapters -/

/-- R161: the CRC of the nine digits. -/
theorem test_crc : crc16 [0x31, 0x32, 0x33, 0x34, 0x35, 0x36, 0x37, 0x38, 0x39] = 0x29B1#16 := by decide +kernel

/-- R159, R165, R168: the frame of a READ of receipt 258 to address 7, written out, is that request. -/
theorem test_frame_read :
    nextOf (feed .branch (0xA5 :: 7 :: 6 :: 0x52 :: 0x45 :: 0x41 :: 0x44 :: 1 :: 2 ::
      be 2 (crc16 [7, 6, 0x52, 0x45, 0x41, 0x44, 1, 2]).toNat) night) = nextOf (exec (.read 258) night) := by
  decide +kernel

/-- R159, R161, R164: the reply to a NOPN refused BAD_STATE at address 7, letter by letter, its CRC worked out by hand. -/
theorem test_reply_frame : (after .nopn night).replyFrame .branch =
    some [0xA5, 7, 8, 0x4E, 0x4F, 0x50, 0x4E, 0x42, 0x41, 0x44, 0x53, 0x47, 0x5B] := by decide +kernel

/-- The start-up of an empty module is the reset state (R27, R178, R183). -/
theorem test_reset_is_restart :
    nextOf (exec (.restart State.reset.ss.straps State.reset.pins true true 0) State.reset) = some State.reset := by
  decide +kernel
theorem test_reset_eeprom : Memory.wf State.reset.ss.eeprom = true := by decide +kernel

/-- Section 3.6.1. -/
theorem test_bag_inside : (JobInputs.check
    { mass := some 4781, tol := { tare := 62000, tareSpread := 1500, lower := 3000, upper := 3000 }
      advice := some ([⟨120, ⟨2000, 1020, 20⟩⟩, ⟨40, ⟨200, 7500, 8⟩⟩], 248000) }) =
    { verdict := some .inside, deviation := some (-63), valueSum := some 248000, slipMismatch := false } := by
  decide +kernel
/-- Section 3.6.1, its last paragraph. -/
theorem test_bag_light : (JobInputs.check
    { mass := some 4750, tol := { tare := 62000, tareSpread := 1500, lower := 3000, upper := 3000 }
      advice := some ([⟨120, ⟨2000, 1020, 20⟩⟩, ⟨40, ⟨200, 7500, 8⟩⟩], 248000) }).verdict = some .light ∧
    storedDeviation (-9400) = -94 := by decide +kernel
/-- Section 3.6.3. -/
theorem test_bag_heavy : (JobInputs.check
    { mass := some 190000, tol := { tare := 80000, tareSpread := 2000, lower := 5000, upper := 5000 }
      advice := some ([⟨656, ⟨200, 7500, 8⟩⟩], 131200) }) =
    { verdict := some .heavy, deviation := some 32767, valueSum := some 131200, slipMismatch := false } := by
  decide +kernel
/-- The table of R67. -/
theorem test_deviations : storedDeviation 249 = 2 ∧ storedDeviation 250 = 3 ∧ storedDeviation (-250) = -2 ∧
    storedDeviation (-251) = -3 ∧ storedDeviation (-6300) = -63 := by decide +kernel

/-- R80 on the moves of section 4.7. -/
theorem test_moves : shorterWay 4 17 = some (.backward, 8) ∧ shorterWay 17 12 = some (.backward, 5) ∧
    shorterWay 12 19 = some (.forward, 7) := by decide +kernel

/-- R3: the counter goes from 65,535 to 1 and past a receipt that is held. -/
theorem test_receipt_wraps :
    ({ safe with cr := { safe.cr with receiptCounter := 65535, records := [bag 1 .held (.pocket 3), bag 65535 .held (.pocket 3)] } } :
      State).freshReceipt = 2 := by decide +kernel

/-- The table of section 2.5. -/
def nightTable : Routing :=
  { general := false
    entries := ((Vector.replicate 8 ({} : RangeEntry)).set 0
      { enabled := true, base := 0x3C100000, prefixLength := 12, group := [3, 4], tolSet := 1, cap := 2 }).set 1
      { enabled := true, base := 0x3C200000, prefixLength := 12, audit := true, group := [8], tolSet := 2 } |>.set 2
      { enabled := true, base := 0x3C000000, prefixLength := 8, group := [5, 6, 7] } }

/-- Section 2.5 at its start: pocket 3 has 2 free units, 4 none, 6 no capacity; a bag of customer 5,120 is HELD. -/
def nightStart : State :=
  let s := keeping [{ bag 1 .held (.pocket 4) with advice := some { advice with customer := 5120 } }] night
  { s with
    trt := nightTable
    pcc := { s.pcc with pockets := ((s.pcc.pockets.set 3 { used := 22 }).set 4 { used := 24 }).set 6 { capacity := 0 } } }

/-- A drop of section 2.5. -/
def drop (tag : Tag) (size : Nat) (customer : Option Nat) : Record :=
  { bag 2 .intake .drawer with tag := some tag, size := some size
                               advice := customer.map fun c => { advice with customer := c } }

/-- Section 2.5, drops A, D and F. -/
theorem test_routes : nightStart.route (drop 1007700000 2 (some 5120)) = { pocket := 3, range := some (.entry 0), tolSet := 1 } ∧
    nightStart.route (drop 1009000000 1 none) =
      { pocket := 0, range := some (.entry 1), tolSet := 2, nominal := some 8, cause := some .audit } ∧
    nightStart.route (drop 1030000000 2 none) = { pocket := 0, range := none, tolSet := 0, cause := some .noRange } := by
  decide +kernel
/-- Section 2.5, drop C after pocket 3 is full, and drop G with every candidate closed. -/
theorem test_routes_on :
    ({ nightStart with pcc := { nightStart.pcc with pockets := nightStart.pcc.pockets.set 3 { used := 24 } } } :
      State).route (drop 1008000000 3 none) = { pocket := 5, range := some (.entry 2), tolSet := 0 } ∧
    ({ nightStart with trt := { nightTable with entries := (nightTable.entries.set 0
        { nightTable.entries[0] with closed := true }).set 2 { nightTable.entries[2] with closed := true } } } :
      State).route (drop 1007950000 1 none) =
      { pocket := 0, range := some (.entry 0), tolSet := 1, cause := some .rangeClosed } := by decide +kernel

/-- Section 4.8: PRTV 3 during the first step of a pre-position move from 5 to 7 makes 6 the target; there the release for
13 is served. -/
theorem test_pre_position_cut :
    let s := { drumIn (.moving { target := 7, dir := .forward, steps := 2, stepMs := 250, settleMs := 400, prePosition := true } 750)
      (some 5) night with intake := { phase := .closed } }
    (turning (after (.prtv 3) s).pcc.drum).map (·.1) = some 6 ∧
    (after (.encoderStep .forward) (after (.prtv 3) s)).pcc.position = some 6 ∧
    turning (after (.encoderStep .forward) (after (.prtv 3) s)).pcc.drum = some (13, 7, .forward) := by
  decide +kernel

/-- R162: a request sent to another address, and one with a bad CRC, get no reply; an unknown name gets UNKNOWN. -/
theorem test_frame_checks :
    nextOf (exec (.frameRejected .branch ⟨6, ReqName.stat.code, [], crc16 (frameBytes 6 ReqName.stat.code [])⟩) night) = some night ∧
    nextOf (exec (.frameRejected .branch ⟨7, ReqName.stat.code, [], 0⟩) night) = some night ∧
    (after (.frameRejected .branch ⟨7, 0x41414141, [], crc16 (frameBytes 7 0x41414141 [])⟩) night).ls.branch.reply =
      some { name := 0x41414141, answer := { word := .unknown } } := by decide +kernel

/-- R104, R106: full scale and the route of a steady reading in one event, into the first pocket of the general range. -/
theorem test_scale_routes :
    (after (.scaleReading 200001 true) { (keeping [bag 9 .intake .drawer] night) with
      intake := { phase := .weigh, weighTimer := some 3000 } }).cr.records.map
        (fun r => (r.mass, r.overRange, r.verdict, r.range)) =
      [(some 200000, true, some .pending, some .general)] := by decide +kernel

/-! ## Witnesses: each statement's hypotheses are met -/

theorem witness_queue : ({ night with pending := [.stat] } : State).pending = .stat :: [] ∧ night.pending = [] :=
  ⟨rfl, rfl⟩
theorem witness_reset_held : ({ night with resetHeld := true } : State).resetHeld = true := rfl

theorem witness_requests : Instr.stat.encode = some (.stat, []) ∧ branchIdle night ∧ Instr.pcls.encode = some (.pcls, []) ∧
    panelIdle night ∧ ((after .stat night).line ReqName.stat.line).reply.isSome = true ∧
    ({ night with ss := { night.ss with straps := ⟨0, false, false⟩ } } : State).ss.straps.address = 0 := by
  unfold branchIdle panelIdle; decide +kernel

theorem witness_encoded :
    let c := Instr.advs 5 0xFFFFFF 7 (List.replicate 77 ⟨255, 65535⟩)
    c.wf = true ∧ (c.encode.map fun x => (x.1, x.2.length)) = some (.advs, 244) ∧
    (Instr.prtv 255).wf = true ∧ (Instr.prtv 255).encode = some (.prtv, [255]) ∧
    night.line .branch = {} ∧ night.line .panel = {} ∧ night.address .branch = some 7 ∧ night.address .panel = some 1 ∧
    night.resetHeld = false := by decide +kernel

theorem witness_frames :
    let good (n : BitVec 32) (b : List Byte) := crc16 (frameBytes 7 n b)
    night.resetHeld = false ∧ (night.line .branch).reply = none ∧ night.address .branch = some 7 ∧
    night.address .branch ≠ some 8 ∧ good ReqName.stat.code [] ≠ 0 ∧
    (∀ r ∈ ReqName.all, r.code ≠ 0x41414141) ∧ ¬ ([1#8] : List Byte).length = 0 ∧ ReqName.stat.parse [1] = none ∧
    Instr.stat.encode = some (.stat, []) ∧ Instr.stat.wf = true := by decide +kernel

/-- A body too short for its count field, one that ends with it, and one item more. -/
theorem witness_body_sizes : ¬ bodyFits .clrs [] ∧ bodyFits .clrs [0] ∧ bodyFits .clrs [1, 9] ∧ ¬ bodyFits .clrs [1] ∧
    bodyFits .timw [] ∧ ¬ bodyFits .timw [0] ∧ bodyFits .stat [] ∧ ¬ bodyFits .stat [1] := by
  simp [bodyFits]
theorem witness_receiver :
    let l (x : LineState) : State := night.setLine .branch x
    ((after .stat night).line .branch).reply.isSome = true ∧ (night.line .branch).receiver = .hunt ∧
    ((l { receiver := .frame [7] }).line .branch).receiver = .frame [7] ∧ (3#8).toNat < 4 ∧ 250 < (251#8).toNat ∧
    ((l { receiver := .frame [7, 4] }).line .branch).receiver = .frame (7 :: 4 :: []) ∧
    4 ≤ (4#8).toNat ∧ (250#8).toNat ≤ 250 ∧ ([] : List Byte).length < (4#8).toNat + 1 ∧
    (List.replicate 250 (0#8)).length < (250#8).toNat + 1 ∧ (0xA4#8) ≠ 0xA5#8 := by decide +kernel

/-- The shortest frame and the longest, all but their last byte received. -/
theorem witness_completing_byte :
    let l (n : Byte) (taken : List Byte) : State := night.setLine .branch { receiver := .frame (7 :: n :: taken) }
    ((l 4 (List.replicate 5 0)).line .branch).receiver = .frame (7 :: 4#8 :: List.replicate 5 0#8) ∧
    ((l 4 (List.replicate 5 0)).line .branch).reply = none ∧ (List.replicate 5 (0#8)).length = (4#8).toNat + 1 ∧
    (List.replicate 251 (0#8)).length = (250#8).toNat + 1 := by decide +kernel
/-- The last byte of a STAT whose CRC is wrong: the frame is discarded, and the receiver is in HUNT (R160, R162). -/
theorem test_completing_byte : nextOf (feed .branch [0xA5#8, 7, 4, 0x53, 0x54, 0x41, 0x54, 0, 0] night) = some night := by
  decide +kernel

theorem witness_read : branchIdle safe ∧ (65535#16 ≠ 0 ∧ ∀ r ∈ safe.cr.records, r.receipt ≠ 65535) ∧
    holds safe (bag 4 .held (.pocket 3)) ∧ unclaimed safe 0xFFFFFFFE#32 ∧ claims safe (tagOf 4) (bag 4 .held (.pocket 3)) := by
  unfold branchIdle claims unclaimed holds; decide +kernel

theorem witness_lists : branchIdle safe ∧ 1#16 ≠ 0#16 ∧ (∀ c : BitVec 8, c = 8#8 → (decide (∀ x ∈ [RecState.advised, .intake, .grace, .held, .staged,
      .overdue, .missing], x.code ≠ c)) = true) ∧ 20 < (21#8).toNat ∧ 23 < (24#8).toNat ∧ (20#8).toNat = (20 : Fin 21).val ∧
    (23#8).toNat ≤ 23 := by unfold branchIdle; decide +kernel

theorem witness_stat : branchIdle safe ∧ branchIdle { safe with ls := { safe.ls with flags := Vector.replicate 16 { set := true, count := 255 } } } ∧
    (∀ i : Fin 16, safe.ls.flags[i].set = false ∨ safe.ls.flags[i].set = true) ∧
    (∀ i : Fin 16, (safe.ls.flags.set 15 {}).toList.length = 16 ∧ (Vector.replicate 16 ({} : FlagCell))[i].set = false) := by
  unfold branchIdle; decide +kernel

theorem witness_clrs : branchIdle safe ∧ ([] : List (BitVec 8)).length = 0 ∧ 16 < (List.replicate 17 (1#8)).length ∧
    (∃ c ∈ [0#8], c.toNat = 0) ∧ (∃ c ∈ [17#8], 16 < c.toNat) ∧
    ¬ ([1#8, 16#8].length = 0 ∨ 16 < [1#8, 16#8].length ∨ ∃ c ∈ [1#8, 16#8], c.toNat = 0 ∨ 16 < c.toNat) := by
  unfold branchIdle; decide +kernel

theorem witness_clock : branchIdle safe ∧ 86399 < (86400#24).toNat ∧ (86399#24).toNat ≤ 86399 ∧ safe.ls.clock = none ∧
    ({ safe with ls := { safe.ls with clock := some 86398 } } : State).ls.clock = some 86398 := by
  unfold branchIdle; decide +kernel

theorem witness_chute : State.reset.cr.night = .day ∧ safe.cr.night = .night ∧ safe.chuteConditions = true ∧
    safe.intake.phase = .ready ∧ (advised 384).chuteConditions = false ∧ (advised 383).chuteConditions = true ∧
    (dropping .jammed).intake.phase = .jammed := by decide +kernel

theorem witness_night : branchIdle safe ∧ safe.cr.night = .night ∧
    branchIdle { safe with cr := { safe.cr with night := .day } } := by unfold branchIdle; decide +kernel

theorem witness_wipe : branchIdle safe ∧ (∃ r ∈ safe.cr.records, r.state ≠ .advised ∧ r.state ≠ .missing) ∧
    (∀ r ∈ (advised 3).cr.records, r.state = .advised ∨ r.state = .missing) ∧ branchIdle (advised 3) ∧
    safe.cr.lossPending = false ∧
    ({ safe with cr := { safe.cr with lossPending := true } } : State).cr.lossPending = true ∧ notRostered safe 13 := by
  unfold branchIdle notRostered; decide +kernel
theorem witness_roles : hasRole safe 11 .teller ∧ hasRole safe 12 .supervisor :=
  ⟨teller_11 _ rfl, supervisor_12 _ rfl⟩

/-- A well-formed advice, at the limits of its fields. -/
def lines8 : List LineField := (List.range 8).map fun i => ⟨BitVec.ofNat 8 (i + 8), 9999⟩
/-- ADVS is refused BAD_VALUE, as a Bool. -/
def refusedAdvice (s : State) (tag : Tag) (declared : BitVec 40) (lines : List LineField) : Bool :=
  @decide (badAdvice s tag declared lines) (by unfold badAdvice; infer_instance)
theorem witness_advs_good : branchIdle safe ∧ refusedAdvice safe 1 99999999999 lines8 = false ∧
    refusedAdvice safe 0xFFFFFFFE 0 [⟨0, 1⟩] = false := by unfold branchIdle; decide +kernel
theorem witness_advs_bad : refusedAdvice safe 0 1 [⟨0, 1⟩] = true ∧ refusedAdvice safe 0xFFFFFFFF 1 [⟨0, 1⟩] = true ∧
    refusedAdvice safe 1 1 [] = true ∧ refusedAdvice safe 1 1 (lines8 ++ [⟨0, 1⟩]) = true ∧
    refusedAdvice safe 1 1 [⟨16, 1⟩] = true ∧ refusedAdvice safe 1 1 [⟨0, 0⟩] = true ∧
    refusedAdvice safe 1 1 [⟨0, 10000⟩] = true ∧ refusedAdvice safe 1 1 [⟨0, 1⟩, ⟨0, 2⟩] = true ∧
    refusedAdvice night 1 1 [⟨0, 1⟩] = true ∧ refusedAdvice safe 1 100000000000 [⟨0, 1⟩] = true := by decide +kernel
theorem witness_advs_creates : branchIdle (advised 367) ∧ unclaimed (advised 367) 5 ∧ (advised 367).cr.records.length < 368 ∧
    368 ≤ (advised 368).cr.records.length ∧ branchIdle (advised 368) ∧ unclaimed (advised 368) 5 := by
  unfold branchIdle unclaimed; decide +kernel
theorem witness_receipts_ordered : receiptsOrdered (advised 20) ∧ unclaimed (advised 20) 5 ∧ branchIdle (advised 20) := by
  unfold receiptsOrdered slotsBounded unclaimed branchIdle; decide +kernel

theorem witness_advs_claimed : branchIdle (dropping .weigh) ∧ claims (dropping .weigh) (tagOf 1) kept[0] ∧ kept[0].state = .advised ∧
    claims (dropping .weigh) (tagOf 2) kept[1] ∧ kept[1].state = .missing ∧
    claims (dropping .weigh) (tagOf 9) (bag 9 .intake .drawer) ∧ claims safe (tagOf 3) kept[2] ∧
    claims safe (tagOf 4) kept[3] ∧ kept[3].mark = .none ∧ claims safe (tagOf 5) kept[4] ∧ kept[4].mark ≠ .none ∧
    claims safe (tagOf 6) kept[5] ∧ claims safe (tagOf 7) kept[6] ∧
    5 ≤ ({ safe with wau := { safe.wau with queue := List.replicate 5 ⟨4, none⟩ } } : State).wau.queue.length ∧
    kept[2].location = .pocket 3 ∧ kept[3].location = .pocket 3 ∧ safe.wau.queue.length ≤ 4 := by
  unfold branchIdle claims holds; decide +kernel
theorem witness_wdrw : branchIdle safe ∧ claims safe (tagOf 1) kept[0] ∧ kept[0].state = .advised ∧ claims safe (tagOf 2) kept[1] ∧
    kept[1].state = .missing ∧ unclaimed safe 1 ∧ claims (dropping .weigh) (tagOf 9) (bag 9 .intake .drawer) := by
  unfold branchIdle claims holds unclaimed; decide +kernel

theorem witness_settings : branchIdle night ∧ night.ss.saving = none ∧ branchIdle saving ∧ saving.ss.saving.isSome = true ∧
    writesSetting .save = some .save := by unfold branchIdle; decide +kernel
theorem witness_capacity : (0#8).toNat = 0 ∧ 20 < (21#8).toNat ∧ (20 : Fin 21).val ≠ 0 ∧ (20#8).toNat = (20 : Fin 21).val ∧
    (1#8).toNat = (1 : Fin 21).val ∧ 3 < (4#8).toNat ∧ (3#8).toNat = (3 : Fin 4).val := by decide +kernel

/-- The conditions that refuse an RNGW (R32). -/
def badRange (entry : BitVec 8) (f : RangeField) : Bool :=
  decide (7 < entry.toNat ∨ 1 < f.enabled.toNat ∨ 1 < f.closed.toNat ∨ 1 < f.audit.toNat ∨ 3 < f.tolSet.toNat ∨
    15 < f.cap.toNat ∨ f.group.length = 0 ∨ 8 < f.group.length ∨ (∃ p ∈ f.group, p.toNat = 0 ∨ 20 < p.toNat) ∨
    ¬ f.group.Nodup)
theorem witness_rngw : badRange 7 ⟨1, 5, 33, 1, 1, 3, 15, [1, 2, 3, 4, 5, 6, 7, 20]⟩ = false ∧
    badRange 8 ⟨1, 5, 8, 0, 0, 0, 0, [1]⟩ = true ∧ badRange 0 ⟨2, 5, 8, 0, 0, 0, 0, [1]⟩ = true ∧
    badRange 0 ⟨1, 5, 8, 2, 0, 0, 0, [1]⟩ = true ∧ badRange 0 ⟨1, 5, 8, 0, 2, 0, 0, [1]⟩ = true ∧
    badRange 0 ⟨1, 5, 8, 0, 0, 4, 0, [1]⟩ = true ∧ badRange 0 ⟨1, 5, 8, 0, 0, 0, 16, [1]⟩ = true ∧
    badRange 0 ⟨1, 5, 8, 0, 0, 0, 0, []⟩ = true ∧ badRange 0 ⟨1, 5, 8, 0, 0, 0, 0, [1, 2, 3, 4, 5, 6, 7, 8, 9]⟩ = true ∧
    badRange 0 ⟨1, 5, 8, 0, 0, 0, 0, [0]⟩ = true ∧ badRange 0 ⟨1, 5, 8, 0, 0, 0, 0, [21]⟩ = true ∧
    badRange 0 ⟨1, 5, 8, 0, 0, 0, 0, [1, 1]⟩ = true := by decide +kernel

/-- The conditions that refuse a DENW (R46). -/
def badDenoms (start : BitVec 8) (entries : List DenomField) : Bool :=
  decide (15 < start.toNat ∨ entries.length = 0 ∨ 16 < entries.length ∨ ∃ e ∈ entries, 1000000 < e.face.toNat)
theorem witness_denw : badDenoms 15 (List.replicate 16 ⟨1000000, 1, 1⟩) = false ∧ badDenoms 16 [⟨1, 1, 1⟩] = true ∧
    badDenoms 0 [] = true ∧ badDenoms 0 (List.replicate 17 ⟨1, 1, 1⟩) = true ∧ badDenoms 0 [⟨1000001, 1, 1⟩] = true := by
  decide +kernel

/-- The conditions that refuse a ROST (R136) and a POLW (R152). -/
def badRoster (entries : List StaffField) : Bool :=
  decide (16 < entries.length ∨ (∃ e ∈ entries, e.id.toNat = 0 ∨ 999999 < e.id.toNat) ∨
    (∃ e ∈ entries, e.role ≠ 1#8 ∧ e.role ≠ 2#8) ∨ ¬ (entries.map StaffField.id).Nodup)
def badPolicy (terms : List TermField) : Bool :=
  decide (4 < terms.length ∨ (∃ t ∈ terms, t.condition.toNat = 0 ∨ 11 < t.condition.toNat) ∨ ∃ t ∈ terms, 1 < t.invert.toNat)
theorem witness_rost_polw : (session .closed night).rc.session = .closed ∧ night.rc.session ≠ .closed ∧
    badRoster ((List.range 16).map fun i => ⟨BitVec.ofNat 24 (999984 + i), 2⟩) = false ∧ badRoster [] = false ∧
    badRoster ((List.range 17).map fun i => ⟨BitVec.ofNat 24 (1 + i), 2⟩) = true ∧ badRoster [⟨0, 1⟩] = true ∧
    badRoster [⟨1000000, 1⟩] = true ∧ badRoster [⟨1, 0⟩] = true ∧ badRoster [⟨1, 3⟩] = true ∧
    badRoster [⟨1, 1⟩, ⟨1, 2⟩] = true ∧ badPolicy (List.replicate 4 ⟨11, 1⟩) = false ∧ badPolicy [] = false ∧
    badPolicy (List.replicate 5 ⟨1, 1⟩) = true ∧ badPolicy [⟨0, 1⟩] = true ∧ badPolicy [⟨12, 1⟩] = true ∧
    badPolicy [⟨1, 2⟩] = true := by decide +kernel

theorem witness_timw : branchIdle night ∧ night.ss.saving = none ∧ 1 < (2#8).toNat ∧ (1#8).toNat ≤ 1 ∧ (0#8).toNat ≤ 1 := by
  unfold branchIdle; decide +kernel

theorem witness_save : saving.resetHeld = false ∧ night.ss.saving = none ∧ saving.ss.saving = some copy ∧ copy.length = 435 ∧
    copy.head? = some 1#8 ∧ eepromCanonical saving ∧ (434 < 435 ∧ 5#8 ≠ copy.getD 434 0) ∧ 2#8 ≠ copy.getD 0 0 := by
  unfold eepromCanonical; decide +kernel
theorem witness_interrupted : eepromCanonical saving ∧ saving.ss.saving = some copy ∧ copy.length = 435 ∧ 1 ≤ 1 ∧ 435 ≤ 435 ∧
    night.ss.straps.autoloadOff = false := by unfold eepromCanonical; decide +kernel

theorem witness_permit : branchIdle night ∧ 1 < (2#8).toNat ∧ (1#8).toNat ≤ 1 ∧ (0#8).toNat ≤ 1 ∧ night.resetHeld = false ∧
    night.permit = true := by unfold branchIdle; decide +kernel

theorem witness_cred : panelIdle night ∧ (session .closed night).rc.session = .closed ∧ (session .closed night).permit = true ∧
    ({ session .closed night with rc := { (session .closed night).rc with wndw := false } } : State).permit = false ∧
    999999 < (1000000#24).toNat ∧ ¬ ((999999#24).toNat = 0 ∨ 999999 < (999999#24).toNat) ∧
    ¬ ((1#24).toNat = 0 ∨ 999999 < (1#24).toNat) ∧ notRostered night 13 ∧
    (session (.pairing (11#24).toNat 60) night).rc.session = .pairing (11#24).toNat 60 ∧ night.rc.session = .opened 60 ∧
    (12#24) ≠ 11 := by unfold panelIdle notRostered; decide +kernel
theorem witness_cred_roles : hasRole (session (.pairing 11 60) night) 12 .supervisor ∧
    hasRole (session (.pairing 11 60) night) 11 .teller ∧
    hasRole { night with rc := { night.rc with roster := [⟨11, .teller⟩, ⟨13, .teller⟩] } } 13 .teller :=
  ⟨supervisor_12 _ rfl, teller_11 _ rfl, ⟨[⟨11, .teller⟩], [], ⟨13, .teller⟩, rfl, rfl, rfl, by simp⟩⟩

theorem witness_session_ends : night.resetHeld = false ∧ panelIdle night ∧ night.rc.session = .opened 60 ∧
    (session .closed night).rc.session = .closed ∧ (session (.pairing 11 60) night).rc.session = .pairing 11 60 ∧
    night.pcc.queue = [] ∧ night.rc.hatch = .locked ∧ (atHatch 3 none).rc.hatch = .opened ∧
    (State.unlockHatch night 3).rc.hatch = .unlocked := by unfold panelIdle; decide +kernel

theorem witness_prtv : panelIdle night ∧ 20 < (21#8).toNat ∧ (20#8).toNat = (20 : Fin 21).val ∧ night.rc.session = .opened 60 ∧
    (session .closed night).rc.session = .closed ∧ (drumIn .fault none night).pcc.drum = .fault ∧ night.pcc.drum ≠ .fault ∧
    3 ≤ (queued (List.replicate 3 (request .release 1 .waiting)) night).pcc.queue.countP (fun x => x.source == .release) ∧
    (queued (List.replicate 2 (request .release 1 .waiting)) night).pcc.queue.countP (fun x => x.source == .release) < 3 ∧
    (drumIn (.homing none) none night).pcc.drum = .homing none ∧ move.prePosition = false ∧
    (drumIn (.moving move 500) (some 4) night).pcc.drum = .moving move 500 := by unfold panelIdle; decide +kernel

/-- A pre-position move of two steps on which a request can break in. -/
def preMove : Move := { move with target := 6, steps := 2, prePosition := true }
theorem witness_prtv_breaks_in :
    let on (d : Drum) : State := drumIn d (some 4) { night with pcc := { night.pcc with weakOption := true } }
    panelIdle (on (.settle preMove)) ∧ (on (.settle preMove)).pcc.drum = .settle preMove ∧ preMove.prePosition = true ∧
    (on (.moving preMove 500)).pcc.weakOption = true ∧ (on (.moving preMove 500)).pcc.position = some 4 ∧
    (drumIn (.settle move) (some 4) night).pcc.drum = .settle move ∧ move.prePosition = false ∧ night.pcc.drum = .idle ∧
    ({ night with pcc := { night.pcc with weakOption := false } } : State).pcc.weakOption = false := by
  unfold panelIdle; decide +kernel

theorem witness_notg : panelIdle (atHatch 3 none) ∧ (8#16) ≠ 0 ∧ (atHatch 3 none).rc.session = .opened 60 ∧
    (atHatch 3 none).rc.openPocket = some 3 ∧ safe.rc.openPocket = none ∧ holds (atHatch 3 none) kept[7] ∧
    kept[7].receipt = (8#16).toNat ∧ kept[7].receipt ∈ (atHatch 3 none).cr.lists[3] ∧ kept[7].state = .held ∧
    kept[7].tag = none ∧
    (∀ x ∈ (atHatch 3 none).cr.records, x.receipt = (4#16).toNat →
      x.receipt ∉ (atHatch 3 none).cr.lists[3] ∨ x.state ≠ .held ∨ x.tag ≠ none) := by
  unfold panelIdle holds; decide +kernel

theorem witness_scan_stages :
    let s := atHatch 3 (some (.good (tagOf 5)))
    s.resetHeld = false ∧ s.rc.reader.holding = some (.good (tagOf 5)) ∧ tagOf 5 ≠ 0 ∧ tagOf 5 ≠ 0xFFFFFFFF ∧
    s.rc.openPocket = some 3 ∧ s.rc.guardMark = none ∧ s.cr.lists[3] = [3, 4] ++ 5 :: [8] ∧ holds s kept[4] ∧
    kept[4].state = .held ∧ kept[4].tag = some (tagOf 5) ∧
    (∀ x ∈ s.cr.records, x.receipt ∈ [3, 4] → x.state ≠ .held ∨ x.tag ≠ some (tagOf 5)) := by
  unfold holds; decide +kernel
theorem witness_scan_else :
    let s (t : Tag) := atHatch 2 (some (.good t))
    let clear (t : Tag) := ∀ x ∈ (s t).cr.records, x.receipt ∈ (s t).cr.lists[2] → x.state ≠ .held ∨ x.tag ≠ some t
    clear 1 ∧ unclaimed (s 1) 1 ∧ (s 1).rc.guardMark = none ∧ clear (tagOf 6) ∧ claims (s (tagOf 6)) (tagOf 6) kept[5] ∧ kept[5].state = .staged ∧
    kept[5].size = some 2 ∧ safe.pcc.pockets[2].capacity ≠ 0 ∧
    safe.pcc.pockets[2].used + safe.pcc.heldUnits 2 + 2 ≤ safe.pcc.pockets[2].capacity ∧
    (let f : State := { safe with pcc := { safe.pcc with pockets := safe.pcc.pockets.set 2 { used := 23 } } }
     f.pcc.pockets[2].capacity < f.pcc.pockets[2].used + f.pcc.heldUnits 2 + 2) ∧
    claims (s (tagOf 4)) (tagOf 4) kept[3] ∧ claims (s (tagOf 3)) (tagOf 3) kept[2] := by
  unfold claims holds unclaimed; decide +kernel
theorem witness_reads : safe.rc.reader.holding = none ∧ (atHatch 3 (some .bad)).rc.reader.holding = some .bad ∧
    (let s : State := { atHatch 3 (some (.good 5)) with rc := { (atHatch 3 (some (.good 5))).rc with guardMark := some ⟨5, 100⟩ } }
     s.rc.guardMark = some ⟨5, 100⟩ ∧ s.rc.openPocket = some 3 ∧ 2099 < 100 + 2000 ∧ 100 + 2000 ≤ 2100) ∧
    (atHatch 3 (some (.good 0xFFFFFFFF))).rc.reader.holding = some (.good 0xFFFFFFFF#32) ∧
    (atHatch 3 (some (.good 0xFFFFFFFF))).rc.openPocket = some 3 ∧
    ({ safe with rc := { safe.rc with reader := { holding := some (.good 0) } } } : State).rc.openPocket = none := by
  decide +kernel

/-- What refuses a CNFM BAD_VALUE (R155), as a Bool. -/
def badConfirm (n : BitVec 16) (c : BitVec 40) (ids : List (BitVec 24)) : Bool :=
  decide (n.toNat = 0 ∨ 99999999999 < c.toNat ∨ (ids.length ≠ 1 ∧ ids.length ≠ 2)) ||
    ids.any fun id => decide (id.toNat = 0 ∨ 999999 < id.toNat)
theorem witness_cnfm_fields : badConfirm 6 99999999999 [11] = false ∧ badConfirm 6 0 [11, 12] = false ∧
    badConfirm 0 0 [11] = true ∧ badConfirm 6 100000000000 [11] = true ∧ badConfirm 6 0 [] = true ∧
    badConfirm 6 0 [11, 12, 11] = true ∧ badConfirm 6 0 [0] = true ∧ badConfirm 6 0 [1000000] = true := by decide +kernel
theorem witness_cnfm : branchIdle safe ∧ (∀ x ∈ safe.cr.records, x.receipt ≠ 100) ∧ holds safe kept[3] ∧ holds safe kept[5] ∧
    kept[5].countRequired = false ∧ holds safe kept[6] ∧ notRostered safe 13 := by
  unfold branchIdle holds notRostered; decide +kernel
/-- A STAGED record that needs a dual count. -/
def dualBag : Record := { bag 6 .staged .out with countRequired := true }
theorem witness_cnfm_count : holds (keeping [dualBag] safe) dualBag ∧ dualBag.state = .staged ∧ dualBag.countRequired = true ∧
    (11#24) ≠ 12 := by unfold holds; decide +kernel
theorem witness_cnfm_dual : hasRole safe 11 .teller ∧ hasRole safe 12 .supervisor ∧
    ¬ ∃ a b, ([11] : List (BitVec 24)) = [a, b] ∧ a ≠ b ∧ (hasRole safe a .supervisor ∨ hasRole safe b .supervisor) :=
  ⟨teller_11 _ rfl, supervisor_12 _ rfl, by simp⟩

theorem witness_timers : safe.resetHeld = false ∧ holds safe kept[2] ∧ kept[2].state = .grace ∧ kept[2].grace.isSome = true ∧
    holds safe kept[5] ∧ kept[5].state = .staged ∧ (∃ h ∈ safe.rc.handoverTimers, h.1 = kept[5].receipt) ∧
    (∀ x ∈ safe.cr.records, x.receipt = 4 → x.state ≠ .grace ∨ x.grace = none) ∧
    (∀ h ∈ safe.rc.handoverTimers, h.1 ≠ 4) := by unfold holds; decide +kernel

theorem witness_hatch : safe.resetHeld = false ∧ (safe.unlockHatch 3).rc.hatch = .unlocked ∧
    (safe.unlockHatch 3).rc.unopenedTimer.isSome = true ∧ (atHatch 3 none).rc.hatch = .opened ∧
    (atHatch 3 none).pcc.drum ≠ .homing none ∧ safe.rc.hatch = .locked ∧ safe.rc.unopenedTimer = none := by decide +kernel

theorem witness_hatch_homing :
    let s (x : State) : State := drumIn (.homing none) none x
    (s safe).pcc.drum = .homing none ∧ (s safe).rc.hatch = .locked ∧ (s (atHatch 3 none)).rc.hatch = .opened ∧
    safe.pins.refMark = false ∧ (after .referenceMark (s safe)).pins.refMark = true ∧
    (after .referenceMark (s safe)).pcc.drum = .homing none := by decide +kernel

theorem witness_drawer : safe.resetHeld = false ∧ safe.intake.phase = .ready ∧ (dropping .loading).intake.phase = .loading ∧
    (after .drawerOpened safe).intake.phase = .loading ∧ (after .drawerOpened safe).intake.drawerTimer.isSome = true := by
  decide +kernel

theorem witness_readers :
    let s (p : Phase) (x : Option TagRead) (r : Readings) : State :=
      { safe with intake := { safe.intake with phase := p, reader := { holding := x }, readings := r } }
    (s .identify none {}).intake.reader.holding = none ∧ (s .identify (some .bad) {}).intake.reader.holding = some .bad ∧
    (s .identify (some (.good 5)) {}).intake.readings.firstTag = none ∧
    (s .identify (some (.good 5)) { firstTag := some 5 }).intake.readings.firstTag = some 5 ∧
    (s .identify (some (.good 5)) { firstTag := some 6 }).intake.readings.firstTag = some 6 ∧ (6 : Tag) ≠ 5 ∧
    (s .weigh (some (.good 5)) {}).intake.phase ≠ .identify ∧ (atHatch 3 (some .bad)).rc.reader.holding = some .bad := by
  decide +kernel

/-- The tag window runs with these readings over n ADVISED records. -/
def identifying (n : Nat) (r : Readings) : State :=
  let s := advised n
  { s with intake := { s.intake with phase := .identify, tagWindow := some 2000, readings := r } }
theorem witness_identify :
    let s := identifying 3 { firstTag := some (tagOf 1), size := some 4 }
    s.resetHeld = false ∧ s.intake.phase = .identify ∧ s.intake.tagWindow.isSome = true ∧ s.pcc.hold.isSome = true ∧
    claims s (tagOf 1) (bag 1 .advised .absent) ∧ unclaimed s 5 ∧ receiptsOrdered s ∧ s.cr.records.length < 384 ∧
    claims safe (tagOf 4) kept[3] ∧ kept[3].state ≠ .advised ∧ kept[3].state ≠ .missing := by
  unfold claims holds unclaimed receiptsOrdered slotsBounded; decide +kernel
theorem witness_identify_full : 384 ≤ (identifying 384 {}).cr.records.length ∧ (identifying 383 {}).cr.records.length < 384 ∧
    (identifying 384 {}).intake.readings.firstTag = none ∧
    (identifying 3 { firstTag := some 5, secondTag := true }).intake.readings.secondTag = true := by decide +kernel

/-- The scale is read in WEIGH. -/
def weighing (x : Option Int) : State :=
  { dropping .weigh with intake := { (dropping .weigh).intake with weighTimer := some 3000, readings := { lastReading := x } } }
theorem witness_scale : (weighing none).resetHeld = false ∧ (weighing none).intake.phase = .weigh ∧
    (weighing none).intake.weighTimer.isSome = true ∧ (weighing (some (-1))).intake.readings.lastReading = some (-1) ∧
    safe.intake.phase ≠ .weigh := by decide +kernel

theorem witness_route :
    let r := drop 1007700000 2 (some 5120)
    r.size = some 2 ∧ 1 ≤ 2 ∧ r.cause = none ∧ nightStart.trt.general = false ∧
    (nightStart.trt.candidates r.tag).map Candidate.ref = [.entry 0, .entry 2] ∧
    ¬ hasRoom nightStart 4 2 ∧ ¬ hasRoom nightStart 6 2 ∧ hasRoom nightStart 3 2 ∧ hasRoom nightStart 5 2 ∧
    nightStart.capped r nightTable.entries[0] = false ∧
    nightStart.capped r { nightTable.entries[0] with cap := 1 } = true ∧
    nightStart.trt.candidates (some 1030000000) = [] := by unfold hasRoom; decide +kernel

theorem witness_route_decision : (dropping .route).resetHeld = false ∧ (dropping .route).intake.phase = .route ∧
    inIntake (dropping .route) (bag 9 .intake .drawer) ∧
    ({ dropping .route with wau := { (dropping .route).wau with queue := List.replicate 5 ⟨4, none⟩ } } : State).wau.queue.length ≤ 5 ∧
    6 ≤ ({ dropping .route with wau := { (dropping .route).wau with queue := List.replicate 6 ⟨4, none⟩ } } : State).wau.queue.length ∧
    (drumIn .fault none (dropping .route)).pcc.drum = .fault ∧ (dropping .route).pcc.drum ≠ .fault := by
  unfold inIntake holds; decide +kernel

theorem witness_jobs :
    let j : Job := ⟨4, some (tagOf 4)⟩
    let dead : Job := ⟨1, some (tagOf 1)⟩
    safe.resetHeld = false ∧ safe.intake.phase ≠ .route ∧ holds safe kept[3] ∧ kept[3].receipt = j.receipt ∧ kept[3].tag = j.tag ∧
    kept[3].state ≠ .advised ∧ kept[3].state ≠ .missing ∧ kept[3].verdict ≠ some .pending ∧
    (∀ x ∈ safe.cr.records, x.receipt = dead.receipt → x.tag ≠ dead.tag ∨ ¬ (x.state ≠ .advised ∧ x.state ≠ .missing)) ∧
    (let s : State := { safe with wau := { safe.wau with queue := [dead, j] } }
     s.wau.working = none ∧ s.wau.queue = [dead] ++ j :: []) ∧
    (let s := (keeping [{ bag 4 .held (.pocket 3) with verdict := some .pending }] safe).queueJob 4 (some (tagOf 4))
     s.wau.working.isSome = true ∧ s.wau.queue = j :: [] ∧ j ∉ ([] : List Job) ∧
     holds s { bag 4 .held (.pocket 3) with verdict := some .pending }) := by unfold holds; decide +kernel

/-- A drop waits in ROUTE, and the completion of the head job takes its route decision (R54, R55). -/
theorem witness_jobs_route :
    let s : State := { dropping .route with wau := { safe.wau with
      queue := List.replicate 6 ⟨4, some (tagOf 4)⟩, working := some ⟨none, {}, none⟩ } }
    s.intake.phase = .route ∧ s.wau.working.isSome = true ∧ 6 ≤ s.wau.queue.length ∧
    (after .jobCompletion s).intake.phase ≠ .route ∧ (after .jobCompletion s).wau.queue.length = 6 := by decide +kernel

theorem witness_plausibility : (200 ≤ 200 ∧ 200 ≤ 150000) ∧ (199 < 200 ∧ 199 ≤ 150000) ∧ (200 ≤ 150001 ∧ 150000 < 150001) ∧
    (50 < 100 ∧ 10 < 50) := by decide +kernel

theorem witness_serves :
    let r := request .intake 5 .waiting
    let q := request .release 0 .waiting
    let s := queued [q, r] night
    s.resetHeld = false ∧ s.pcc.drum = .idle ∧ s.rc.hatch = .locked ∧ s.pins.hatchShut = true ∧
    (∀ x ∈ s.pcc.queue, x.stage = .waiting) ∧ s.pcc.queue = [q] ++ r :: [] ∧ r.withdrawn = false ∧
    s.pcc.position = some 0 ∧ r.source = .intake ∧ (∀ x ∈ [q], x.source ≠ .intake) ∧
    shorterWay 0 r.target = some (.forward, 5) ∧ (0 : Fin 21) = (request .intake 0 .waiting).target ∧
    (∀ x ∈ (queued [q] night).pcc.queue, x.source ≠ .intake) ∧ (0 : Fin 21) = q.target ∧
    (drumIn (.settle move) (some 4) night).pcc.drum = .settle move ∧ night.pcc.queue = [] ∧
    (∃ x ∈ (queued [request .intake 0 .inService] night).pcc.queue, x.stage = .inService) := by decide +kernel

theorem witness_steps :
    let s := drumIn (.moving move 500) (some 4) night
    let back := drumIn (.moving { move with target := 6 } 500) (some 4) night
    let home (n : Nat) := drumIn (.homing (some { steps := n, stepMs := 250, timerMs := 10750 })) none night
    s.pcc.drum = .moving move 500 ∧ s.pcc.position = some 4 ∧ (Fin.ofNat 21 (4 + 1) : Fin 21) = move.target ∧
    (Fin.ofNat 21 (4 + 1) : Fin 21) ≠ ({ move with target := 6 } : Move).target ∧ back.pcc.position = some 4 ∧
    (∀ x ∈ s.pcc.queue, x.stage ≠ .serving) ∧
    (let q := queued [request .intake 5 .serving, request .release 5 .waiting] s
     q.pcc.queue = [] ++ request .intake 5 .serving :: [request .release 5 .waiting] ∧
     ∀ x ∈ ([] : List PosRequest) ++ [request .release 5 .waiting], x.stage ≠ .serving) ∧
    (request .release 5 .serving).withdrawn = false ∧ ({ request .release 5 .serving with withdrawn := true } : PosRequest).withdrawn = true ∧
    (home 40).pcc.drum = .homing (some { steps := 40, stepMs := 250, timerMs := 10750 }) ∧ 40 < 41 ∧ 41 ≤ 41 ∧
    (drumIn (.homing none) none night).pcc.drum = .homing none ∧ (drumIn .fault none night).pcc.drum = .fault ∧
    s.resetHeld = false ∧ s.rc.hatch = .locked := by decide +kernel

theorem witness_homing :
    let f := drumIn .fault none night
    let up (shut bag : Bool) : State :=
      { f with intake := { f.intake with takeUp := true }, pins := { f.pins with drawerShut := shut, bagPresent := bag } }
    f.resetHeld = false ∧ branchIdle f ∧ f.pcc.drum = .fault ∧ night.pcc.drum ≠ .fault ∧ notRostered f 13 ∧
    f.rc.hatch = .locked ∧ f.pins.hatchShut = true ∧ f.pins.refMark = false ∧
    ({ f with pins := { f.pins with refMark := true } } : State).pins.refMark = true ∧
    ¬ (({ f with pins := { f.pins with hatchShut := false } } : State).pins.hatchShut = true) ∧
    State.reset.pcc.drum = .homing (some { steps := 0, stepMs := 250, timerMs := 10750 }) ∧
    (up false false).intake.takeUp = true ∧ (up false false).pins.drawerShut = false ∧ (up true true).pins.bagPresent = true ∧
    (up true false).pins.bagPresent = false ∧ night.intake.takeUp = false := by
  unfold branchIdle notRostered; decide +kernel
theorem witness_homing_roles : hasRole (drumIn .fault none night) 12 .supervisor ∧ hasRole (drumIn .fault none night) 11 .teller :=
  ⟨supervisor_12 _ rfl, teller_11 _ rfl⟩

/-- A tip into pocket p runs, the intake request in service, pre-positioning on. -/
def tipping (p : Fin 21) : State :=
  let s := queued [request .intake p .inService] (dropping .tip)
  { s with
    intake := { s.intake with tipTimer := some 4000, readings := { chosen := some p } }
    pcc := { s.pcc with hold := some ⟨p, 2⟩, prePosition := true, position := some p } }
theorem witness_tip :
    let u := completed { tipping 5 with pcc := { (tipping 5).pcc with hold := none } } (bag 9 .intake .drawer) 5
    (tipping 5).resetHeld = false ∧ (tipping 5).intake.phase = .tip ∧ (tipping 5).intake.tipTimer.isSome = true ∧
    inIntake (tipping 5) (bag 9 .intake .drawer) ∧ (tipping 5).intake.readings.chosen = some 5 ∧
    (tipping 5).pcc.prePosition = true ∧ ((tipping 5).pcc.queue.filter fun q => q.source ≠ .intake) = [] ∧
    (tipping 5).rc.hatch = .locked ∧ (tipping 5).pins.hatchShut = true ∧ (tipping 5).pcc.drum = .idle ∧
    u.pcc.classOf 5 = .opened ∧ shorterWay 4 5 = some (.forward, 1) ∧ (tipping 0).pcc.lastIntake = none ∧
    (let v : State := { tipping 5 with pcc := { (tipping 5).pcc with pockets := (tipping 5).pcc.pockets.set 5 { used := 24 } } }
     v.pcc.classOf 5 ≠ .opened ∧ v.pcc.classOf 6 = .opened ∧
     (List.finRange 21).drop 1 = [1, 2, 3, 4] ++ 5 :: ([] ++ 6 :: (List.finRange 21).drop 7) ∧ (5 : Fin 21) ∉ ([1, 2, 3, 4] : List (Fin 21))) := by
  unfold inIntake holds; decide +kernel

/-- The last intake pocket is FULL and no longer stands in its range's group. -/
theorem witness_tip_regrouped :
    let v : State := { tipping 0 with pcc := { (tipping 0).pcc with
      lastIntake := some (5, some (.entry 0)), pockets := (tipping 0).pcc.pockets.set 5 { used := 24 } } }
    v.pcc.classOf 5 ≠ .opened ∧ 5 ∉ v.trt.entries[0].group ∧ v.intake.phase = .tip ∧ v.pcc.prePosition = true := by
  decide +kernel

theorem witness_jamc :
    let s := dropping .jammed
    branchIdle s ∧ ((20#8).toNat ≤ 20 ∨ (20#8) = 255#8) ∧ ¬ ((21#8).toNat ≤ 20 ∨ (21#8) = 255#8) ∧
    ¬ ((254#8).toNat ≤ 20 ∨ (254#8) = 255#8) ∧ s.intake.phase = .jammed ∧ safe.intake.phase ≠ .jammed ∧ notRostered s 13 ∧
    inIntake s (bag 9 .intake .drawer) ∧ (bag 9 .intake .drawer).size = some 2 ∧ hasRoom s 20 2 ∧
    (let f : State := { s with pcc := { s.pcc with pockets := s.pcc.pockets.set 3 { used := 23 } } }
     ¬ hasRoom f 3 2 ∧ inIntake f (bag 9 .intake .drawer)) := by
  unfold branchIdle notRostered inIntake holds hasRoom; decide +kernel
theorem witness_jamc_roles : hasRole (dropping .jammed) 12 .supervisor ∧ hasRole (dropping .jammed) 11 .teller :=
  ⟨supervisor_12 _ rfl, teller_11 _ rfl⟩

theorem witness_restart : receiptsOrdered safe ∧ safe.cr.storeValid = true ∧
    (∀ r ∈ safe.cr.records, r.verdict = some .pending → r.state ≠ .advised ∧ r.state ≠ .missing) ∧
    (∃ r ∈ (dropping .weigh).cr.records, r.state = .intake) ∧ receiptsOrdered (dropping .weigh) ∧
    ({ safe with cr := { safe.cr with lossPending := true } } : State).cr.lossPending = true ∧
    (∀ r ∈ safe.cr.records, r.state ≠ .intake) ∧
    ({ safe with cr := { safe.cr with storeValid := false } } : State).cr.storeValid = false := by
  unfold receiptsOrdered slotsBounded; decide +kernel

/-- What an EEPROM may hold at a restart: nothing was ever written, or an image of the wrong length. -/
theorem witness_loads : night.ss.saving = none ∧
    Memory.read night.ss.eeprom 0 = 0xFF#8 ∧ Memory.read night.ss.eeprom 1 = 0xFF#8 ∧
    (let m : Memory := Memory.writeAll [] [(0, 1#8), (1, 0#8)]
     ¬ (Memory.read m 0 = 0xFF#8 ∧ Memory.read m 1 = 0xFF#8) ∧ [Memory.read m 1, Memory.read m 2] ≠ be 2 435) ∧
    (⟨7, true, false⟩ : Straps).autoloadOff = true ∧ (⟨7, false, false⟩ : Straps).autoloadOff = false := by decide +kernel

theorem witness_settings_legal : settingsLegal SettingValues.default := by unfold settingsLegal; decide +kernel

/-- An EEPROM that holds these bytes from an address on. -/
def eeprom (f : Nat → Byte) (k n : Nat) : Memory := (List.range' k n).foldr (fun a m => Memory.cell a (f a) m) []
theorem eeprom_above (f : Nat → Byte) (n : Nat) : ∀ k, ∀ e ∈ eeprom f k n, k ≤ e.1 := by
  induction n with
  | zero => intro k e he; cases he
  | succ n ih =>
    intro k e he
    have he : e ∈ Memory.cell k (f k) (eeprom f (k + 1) n) := he
    unfold Memory.cell at he
    split at he
    · exact Nat.le_of_succ_le (ih _ e he)
    · rcases List.mem_cons.1 he with rfl | he
      · exact Nat.le_refl _
      · exact Nat.le_of_succ_le (ih _ e he)
theorem eeprom_read (f : Nat → Byte) (n : Nat) : ∀ k a, k ≤ a → a < k + n → Memory.read (eeprom f k n) a = f a := by
  induction n with
  | zero => intro k a h1 h2; omega
  | succ n ih =>
    intro k a h1 h2
    show Memory.read (Memory.cell k (f k) (eeprom f (k + 1) n)) a = f a
    rw [Memory.read_cell k (f k) _ fun e he => eeprom_above f n (k + 1) e he]
    split
    · subst_vars; rfl
    · exact ih (k + 1) a (by omega) (by omega)
theorem eeprom_holds (l : List Byte) : ∃ s : State, s.ss.saving = none ∧ s.ss.straps.autoloadOff = false ∧
    ∀ a : Nat, a < 435 → Memory.read s.ss.eeprom a = l.getD a 0 := by
  refine ⟨{ night with ss := { night.ss with eeprom := eeprom (fun a => l.getD a 0) 0 435 } }, rfl, rfl, ?_⟩
  generalize 435 = n
  intro a h
  exact eeprom_read (fun a => l.getD a 0) n 0 a (Nat.zero_le a) (by omega)
theorem witness_image (save : Nat) : settingsLegal SettingValues.default ∧ ∃ s : State, s.ss.saving = none ∧
    s.ss.straps.autoloadOff = false ∧
    ∀ a : Nat, a < 435 → Memory.read s.ss.eeprom a = (SettingValues.default.image save).getD a 0 :=
  ⟨witness_settings_legal, eeprom_holds _⟩

theorem witness_invariants : registerRight (dropping .weigh) ∧ positionRight night ∧ hatchRight (safe.unlockHatch 3) ∧
    attentionRight (safe.raise .jam) := by
  refine ⟨⟨?_, ?_⟩, ?_, ?_, ?_⟩
  · unfold receiptsOrdered slotsBounded; decide +kernel
  · intro r hr
    have : r ∈ kept ++ [bag 9 .intake .drawer] := hr
    simp [kept, bag] at this
    rcases this with rfl | rfl | rfl | rfl | rfl | rfl | rfl | rfl | rfl <;> simp [located]
  · show night.pcc.position.isSome = true; rfl
  · unfold hatchRight; decide +kernel
  · unfold attentionRight; decide +kernel

/-- The interlock in a move, in a tip, and with the hatch unlocked at an arrival. -/
theorem witness_interlock : interlockRight (drumIn (.moving move 500) (some 4) night) ∧ interlockRight (tipping 5) ∧
    interlockRight (safe.unlockHatch 3) ∧ (∃ q ∈ (tipping 5).pcc.queue, q.stage = .inService) :=
  ⟨⟨⟨rfl, rfl⟩, by decide +kernel⟩, ⟨trivial, fun _ => rfl⟩, ⟨trivial, fun _ => rfl⟩, by decide +kernel⟩
/-- The drawer is unlocked in READY, the drive is on in MOVING, and the hatch is unlocked at an arrival (R81, R94, R144). -/
theorem test_outputs : night.drawerLocked = false ∧ (dropping .weigh).drawerLocked = true ∧ (tipping 5).tipActuator = true ∧
    (drumIn (.moving move 500) (some 4) night).carouselDrive = true ∧ (drumIn (.settle move) (some 4) night).carouselDrive = false ∧
    (drumIn (.homing none) none night).carouselDrive = false ∧ (safe.unlockHatch 3).hatchLocked = false := by decide +kernel

/-- A drop in WEIGH with its record 9, its bag of size 2. -/
theorem witness_drop : dropRight (dropping .weigh) := by
  refine ⟨fun h => absurd h (by decide +kernel), ?_, fun _ => ⟨bag 9 .intake .drawer, ?_⟩, fun h => absurd h (by decide +kernel),
    fun h => absurd h (by decide +kernel), ?_, fun h => absurd h (by decide +kernel)⟩
  · intro r hr h1 h2
    have : r ∈ kept ++ [bag 9 .intake .drawer] := hr
    simp only [kept, bag, List.cons_append, List.nil_append, List.mem_cons, List.not_mem_nil, or_false] at this
    rcases this with rfl | rfl | rfl | rfl | rfl | rfl | rfl | rfl | rfl <;> exact ⟨2, rfl, by decide, by decide⟩
  · unfold inIntake holds; decide +kernel
  · intro q hq; exact absurd (show q ∈ ([] : List PosRequest) from hq) (by simp)
/-- Records that stand in every kind of place: ADVISED, in GRACE and HELD in pocket 3, STAGED, and a drop in WEIGH. -/
def soundRecords : List Record :=
  [{ bag 1 .advised .absent with advice := some advice, mark := .before },
   { bag 3 .grace (.pocket 3) with grace := some 300 }, bag 4 .held (.pocket 3), bag 6 .staged .out, bag 9 .intake .drawer]
/-- A state in which marks, index, lists, totals, timers, hold and queues agree. -/
def sound : State :=
  let s := keeping soundRecords night
  { s with
    intake := { phase := .weigh, weighTimer := some 3000 }
    pcc := { s.pcc with pockets := s.pcc.pockets.set 3 { used := 4, bags := 2, mass := 1400 } }
    rc := { s.rc with handoverTimers := [(6, 30)] } }
theorem sound_records : sound.cr.records = soundRecords := rfl
theorem witness_register : registerRight sound ∧ sound.pcc.hold = some ⟨0, 4⟩ := by
  refine ⟨⟨by unfold receiptsOrdered slotsBounded; decide +kernel, ?_⟩, rfl⟩
  intro r hr
  rw [sound_records] at hr
  simp only [soundRecords, bag, List.mem_cons, List.not_mem_nil, or_false] at hr
  rcases hr with rfl | rfl | rfl | rfl | rfl <;> simp [located]
theorem witness_register_drop : dropRight sound := by
  refine ⟨fun h => absurd h (by decide +kernel), ?_, fun _ => ⟨bag 9 .intake .drawer, ?_⟩, fun h => absurd h (by decide +kernel),
    fun h => absurd h (by decide +kernel), ?_, fun h => absurd h (by decide +kernel)⟩
  · intro r hr _ _
    rw [sound_records] at hr
    simp only [soundRecords, bag, List.mem_cons, List.not_mem_nil, or_false] at hr
    rcases hr with rfl | rfl | rfl | rfl | rfl <;> exact ⟨2, rfl, by decide, by decide⟩
  · unfold inIntake holds; decide +kernel
  · intro q hq; exact absurd (show q ∈ ([] : List PosRequest) from hq) (by simp)
theorem witness_custody_right : custodyRight sound := by
  refine ⟨by unfold markRight; decide +kernel, ⟨by decide +kernel, ?_⟩, ?_, by unfold totalsRight locatedIn; decide +kernel,
    by decide +kernel, ?_⟩
  · intro t n
    rw [sound_records, show sound.cr.tagIndex = [(tagOf 1, 1), (tagOf 3, 3), (tagOf 4, 4), (tagOf 6, 6), (tagOf 9, 9)] by
      decide +kernel]
    constructor
    · intro h
      simp only [List.mem_cons, List.not_mem_nil, or_false, Prod.mk.injEq] at h
      rcases h with ⟨rfl, rfl⟩ | ⟨rfl, rfl⟩ | ⟨rfl, rfl⟩ | ⟨rfl, rfl⟩ | ⟨rfl, rfl⟩
      · exact ⟨_, .head _, rfl, rfl, rfl⟩
      · exact ⟨_, .tail _ (.head _), rfl, rfl, rfl⟩
      · exact ⟨_, .tail _ (.tail _ (.head _)), rfl, rfl, rfl⟩
      · exact ⟨_, .tail _ (.tail _ (.tail _ (.head _))), rfl, rfl, rfl⟩
      · exact ⟨_, .tail _ (.tail _ (.tail _ (.tail _ (.head _)))), rfl, rfl, rfl⟩
    · rintro ⟨r, hr, rfl, -, ht⟩
      simp only [soundRecords, bag, List.mem_cons, List.not_mem_nil, or_false] at hr
      rcases hr with rfl | rfl | rfl | rfl | rfl <;> obtain rfl := Option.some.inj ht <;> decide +kernel
  · intro p
    have h : sound.cr.lists[p] = (locatedIn sound p).map Record.receipt := by
      simp [sound, keeping, locatedIn, beq_eq_decide]
    rw [h]
    refine ⟨?_, fun n => by simp only [List.mem_map]⟩
    revert p; unfold locatedIn; decide +kernel
  · intro n
    rw [sound_records, show sound.rc.handoverTimers = [(6, 30)] from rfl]
    simp [soundRecords, bag, eq_comm]
theorem witness_queues_right : queuesRight sound :=
  ⟨rfl, by unfold roomRight; decide +kernel, by unfold jobsRight; decide +kernel, by unfold requestsRight; decide +kernel⟩

theorem witness_settings_right : settingsRight saving := by
  refine ⟨?_, ?_, ?_⟩
  · unfold settingsLegal; decide +kernel
  · intro c h
    have : copy = c := Option.some.inj h
    subst this; decide +kernel
  · unfold eepromCanonical; decide +kernel

/-- An outcome with a next state is that next state. -/
theorem eq_next {r : Result} {t : State} (h : nextOf r = some t) : r = .next t := by
  cases r <;> simp_all [nextOf]

theorem witness_step : step { night with pending := [.lampExpiry] } = .next night := eq_next (by decide +kernel)

theorem witness_custody : exec (.cnfm 6 0 [11]) safe = .next (after (.cnfm 6 0 [11]) safe) := eq_next (by decide +kernel)
theorem witness_custody_ends : receiptsOrdered safe ∧ kept[5] ∈ safe.cr.records ∧
    (∀ x ∈ (after (.cnfm 6 0 [11]) safe).cr.records, x.receipt ≠ kept[5].receipt) ∧ kept[5].state ≠ .advised ∧
    kept[5].state ≠ .missing := by unfold receiptsOrdered slotsBounded; decide +kernel
/-- The frame of that CNFM on the branch link. -/
theorem witness_custody_frame :
    let body := bytesOf 2 6#16 ++ bytesOf 5 0#40 ++ [1] ++ bytesOf 3 11#24
    decodeRequest .branch ReqName.cnfm.code body = .request (.cnfm 6 0 [11]) ∧ safe.address .branch = some 7 ∧
    nextOf (exec (.frameRejected .branch ⟨7, ReqName.cnfm.code, body, crc16 (frameBytes 7 ReqName.cnfm.code body)⟩) safe) =
      some (after (.cnfm 6 0 [11]) safe) := by decide +kernel

end Sys2Proof.Tests
end

section
/-! PROOF. Lists of records: what is found, changed, inserted and removed by receipt (R3, R4, R12), the fresh receipt of a new
record (R3), and the entries of the tag index and of the handover timers (R14, R153). -/

namespace Sys2Proof.CustodyProofs

open Sys2Proof.Machine Sys2Proof.Safety

/-- Records in rising receipt order (R2). -/
def Rising (l : List Record) : Prop := l.Pairwise fun a b => a.receipt < b.receipt

theorem rising_of_receiptsOrdered {s : State} (h : receiptsOrdered s) : Rising s.cr.records := h.2.1

/-! ## Records by receipt -/

/-- In a rising list one record holds a receipt (R3). -/
theorem Rising.eq_of_receipt {l : List Record} (h : Rising l) {x y : Record} (hx : x ∈ l) (hy : y ∈ l)
    (e : x.receipt = y.receipt) : x = y := by
  induction l with
  | nil => simp at hx
  | cons z rest ih =>
    obtain ⟨hz, hrest⟩ := List.pairwise_cons.mp h
    rcases List.mem_cons.mp hx, List.mem_cons.mp hy with ⟨rfl | xrest, rfl | yrest⟩
    · rfl
    · exact absurd e (hz y yrest).ne
    · exact absurd e (hz x xrest).ne'
    · exact ih hrest xrest yrest

theorem holds_of_mem {s : State} (h : receiptsOrdered s) {r : Record} (hr : r ∈ s.cr.records) : holds s r :=
  ⟨hr, fun _ hx e => (rising_of_receiptsOrdered h).eq_of_receipt hx hr e⟩

theorem mem_of_findReceipt {l : List Record} {n : Nat} {r : Record} (h : findReceipt l n = some r) :
    r ∈ l ∧ r.receipt = n :=
  ⟨List.mem_of_find?_eq_some h, by simpa using List.find?_some h⟩

theorem mem_of_record {s : State} {n : Nat} {r : Record} (h : s.record n = some r) :
    r ∈ s.cr.records ∧ r.receipt = n := mem_of_findReceipt h

theorem record_of_mem {s : State} (h : receiptsOrdered s) {r : Record} (hr : r ∈ s.cr.records) :
    s.record r.receipt = some r := record_of_holds (holds_of_mem h hr)

/-- The record that claims a tag is in the register under the receipt that the index gives (R14). -/
theorem mem_of_claimant {s : State} {t : Tag} {r : Record} (h : s.claimant t = some r) :
    r ∈ s.cr.records ∧ s.indexed t = some r.receipt := by
  obtain ⟨n, hn, hr⟩ := Option.bind_eq_some_iff.mp h
  obtain ⟨hmem, rfl⟩ := mem_of_record hr
  exact ⟨hmem, hn⟩

theorem mem_of_intakeRecord {s : State} {r : Record} (h : s.intakeRecord = some r) :
    r ∈ s.cr.records ∧ r.state = .intake :=
  ⟨List.mem_of_find?_eq_some h, by simpa using List.find?_some h⟩

/-- A receipt of a pocket's list whose record is HELD and passes the test (R17). -/
theorem mem_of_firstHeld {s : State} {p : Fin 21} {test : Record → Bool} {r : Record}
    (h : s.firstHeld p test = some r) :
    r ∈ s.cr.records ∧ r.receipt ∈ s.cr.lists[p] ∧ r.state = .held := by
  obtain ⟨n, hn, hr⟩ := List.mem_filterMap.mp (List.mem_of_find?_eq_some h)
  obtain ⟨hmem, rfl⟩ := mem_of_record hr
  have htest := List.find?_some h
  simp only [Bool.and_eq_true, beq_iff_eq] at htest
  exact ⟨hmem, hn, htest.1⟩

/-! ## One record changed -/

theorem mem_updateReceipt {l : List Record} {n : Nat} {f : Record → Record} {y : Record} :
    y ∈ updateReceipt l n f ↔ ∃ x ∈ l, y = if x.receipt = n then f x else x := by
  simp [updateReceipt, eq_comm]

/-- Records that keep their receipts stay in rising order. -/
theorem Rising.map {l : List Record} (h : Rising l) {f : Record → Record} (hf : ∀ x ∈ l, (f x).receipt = x.receipt) :
    Rising (l.map f) := by
  refine List.pairwise_map.mpr (List.Pairwise.imp_of_mem (fun {a b} ha hb hab => ?_) h)
  rwa [hf a ha, hf b hb]

/-- In a rising list a change by receipt touches one record. -/
theorem Rising.updateReceipt_split {l : List Record} (h : Rising l) {x : Record} (hx : x ∈ l) (f : Record → Record) :
    ∃ before after, l = before ++ x :: after ∧ updateReceipt l x.receipt f = before ++ f x :: after := by
  obtain ⟨before, after, rfl⟩ := List.append_of_mem hx
  obtain ⟨-, hafter, hbefore⟩ := List.pairwise_append.mp h
  have same : ∀ {m : List Record}, (∀ y ∈ m, y.receipt ≠ x.receipt) → updateReceipt m x.receipt f = m := fun hm =>
    (List.map_congr_left fun y hy => if_neg (hm y hy)).trans (List.map_id _)
  have hb : updateReceipt before x.receipt f = before := same fun y hy => (hbefore y hy x (by simp)).ne
  have ha : updateReceipt after x.receipt f = after := same fun y hy => ((List.pairwise_cons.mp hafter).1 y hy).ne'
  refine ⟨before, after, rfl, ?_⟩
  calc updateReceipt (before ++ x :: after) x.receipt f
      = updateReceipt before x.receipt f ++ f x :: updateReceipt after x.receipt f := by simp [updateReceipt]
    _ = before ++ f x :: after := by rw [hb, ha]

/-- What holds of the record with receipt n, before and after the record x has changed. -/
theorem Rising.exists_updateReceipt {l : List Record} (h : Rising l) {x : Record} (hx : x ∈ l) {f : Record → Record}
    (hf : (f x).receipt = x.receipt) (n : Nat) (P : Record → Prop) :
    (∃ r ∈ updateReceipt l x.receipt f, r.receipt = n ∧ P r) ↔
      (n = x.receipt ∧ P (f x)) ∨ (n ≠ x.receipt ∧ ∃ r ∈ l, r.receipt = n ∧ P r) := by
  constructor
  · rintro ⟨r, hr, rfl, hP⟩
    obtain ⟨y, hy, rfl⟩ := mem_updateReceipt.mp hr
    by_cases e : y.receipt = x.receipt
    · obtain rfl := h.eq_of_receipt hy hx e
      simp_all
    · rw [if_neg e] at hP ⊢
      exact .inr ⟨e, y, hy, rfl, hP⟩
  · rintro (⟨rfl, hP⟩ | ⟨hn, r, hr, rfl, hP⟩)
    · exact ⟨f x, mem_updateReceipt.mpr ⟨x, hx, by simp⟩, hf, hP⟩
    · exact ⟨r, mem_updateReceipt.mpr ⟨r, hr, by simp [hn]⟩, rfl, hP⟩

/-- What holds of the record with x's receipt holds of x. -/
theorem Rising.exists_receipt {l : List Record} (h : Rising l) {x : Record} (hx : x ∈ l) (P : Record → Prop) :
    (∃ r ∈ l, r.receipt = x.receipt ∧ P r) ↔ P x :=
  ⟨fun ⟨_, hr, e, hP⟩ => h.eq_of_receipt hr hx e ▸ hP, fun hP => ⟨x, hx, rfl, hP⟩⟩

/-! ## A record inserted -/

theorem insertRecord_perm (r : Record) (l : List Record) : (insertRecord r l).Perm (r :: l) := by
  induction l with
  | nil => exact .refl _
  | cons x rest ih =>
    unfold insertRecord
    split
    · exact .refl _
    · exact (ih.cons x).trans (.swap r x rest)

/-- A record with a receipt that none holds goes between the lower and the higher receipts (R2, R3). -/
theorem Rising.insertRecord_split {l : List Record} (h : Rising l) {r : Record}
    (hr : ∀ x ∈ l, x.receipt ≠ r.receipt) :
    ∃ before after, before ++ after = l ∧ insertRecord r l = before ++ r :: after ∧
      (∀ x ∈ before, x.receipt < r.receipt) ∧ (∀ x ∈ after, r.receipt < x.receipt) := by
  induction l with
  | nil => exact ⟨[], [], rfl, rfl, by simp, by simp⟩
  | cons x rest ih =>
    obtain ⟨hx, hrest⟩ := List.pairwise_cons.mp h
    by_cases hlt : r.receipt < x.receipt
    · refine ⟨[], x :: rest, rfl, by simp [insertRecord, hlt], by simp, fun y hy => ?_⟩
      obtain rfl | hy := List.mem_cons.mp hy
      · exact hlt
      · exact hlt.trans (hx y hy)
    · obtain ⟨before, after, rfl, e, hb, ha⟩ := ih hrest fun y hy => hr y (List.mem_cons_of_mem x hy)
      refine ⟨x :: before, after, rfl, by simp [insertRecord, hlt, e], fun y hy => ?_, ha⟩
      obtain rfl | hy := List.mem_cons.mp hy
      · exact lt_of_le_of_ne (Nat.le_of_not_lt hlt) (hr y (by simp))
      · exact hb y hy

theorem Rising.insertRecord {l : List Record} (h : Rising l) {r : Record} (hr : ∀ x ∈ l, x.receipt ≠ r.receipt) :
    Rising (insertRecord r l) := by
  obtain ⟨before, after, rfl, e, hb, ha⟩ := h.insertRecord_split hr
  obtain ⟨h1, h2, h3⟩ := List.pairwise_append.mp h
  rw [e]
  refine List.pairwise_append.mpr ⟨h1, List.pairwise_cons.mpr ⟨ha, h2⟩, fun x hx y hy => ?_⟩
  obtain rfl | hy := List.mem_cons.mp hy
  · exact hb x hx
  · exact h3 x hx y hy

theorem mem_insertRecord {r x : Record} {l : List Record} : x ∈ insertRecord r l ↔ x = r ∨ x ∈ l := by
  rw [(insertRecord_perm r l).mem_iff, List.mem_cons]

/-! ## The fresh receipt -/

theorem findReceipt_isSome {l : List Record} {n : Nat} :
    (findReceipt l n).isSome = true ↔ ∃ x ∈ l, x.receipt = n := by
  simp [findReceipt]

/-- Receipts count from 1 to 65,535 and round again (R3). -/
theorem nextReceipt_iterate {n : Nat} (h1 : 1 ≤ n) (h2 : n ≤ 65535) (i : Nat) :
    nextReceipt^[i] n = (n - 1 + i) % 65535 + 1 := by
  induction i with
  | zero => simp; omega
  | succ i ih =>
    rw [Function.iterate_succ_apply', ih]
    unfold nextReceipt
    split <;> omega

theorem nextReceipt_iterate_range {n : Nat} (h1 : 1 ≤ n) (h2 : n ≤ 65535) (i : Nat) :
    1 ≤ nextReceipt^[i] n ∧ nextReceipt^[i] n ≤ 65535 := by
  rw [nextReceipt_iterate h1 h2]; omega

/-- The search passes over held receipts only, and stops at a free one unless its fuel runs out. -/
theorem searchReceipt_spec (l : List Record) (fuel n : Nat) :
    ∃ k ≤ fuel, searchReceipt l fuel n = nextReceipt^[k] n ∧
      (∀ j < k, ∃ x ∈ l, x.receipt = nextReceipt^[j] n) ∧
      (k < fuel → ∀ x ∈ l, x.receipt ≠ nextReceipt^[k] n) := by
  induction fuel generalizing n with
  | zero => exact ⟨0, le_rfl, rfl, by simp, by simp⟩
  | succ fuel ih =>
    by_cases hn : (findReceipt l n).isSome = true
    · obtain ⟨k, hk, e, held, free⟩ := ih (nextReceipt n)
      refine ⟨k + 1, by omega, by simp [searchReceipt, hn, e], fun j hj => ?_, fun hlt => free (by omega)⟩
      cases j with
      | zero => exact findReceipt_isSome.mp hn
      | succ j => exact held j (by omega)
    · refine ⟨0, by omega, by simp [searchReceipt, hn], by simp, fun _ x hx e => hn ?_⟩
      exact findReceipt_isSome.mpr ⟨x, hx, e⟩

/-- Fewer than 65,535 records cannot hold one receipt more than there are records. -/
theorem exists_free_receipt {l : List Record} (hl : l.length < 65535) {n : Nat} (h1 : 1 ≤ n) (h2 : n ≤ 65535)
    (held : ∀ j ≤ l.length, ∃ x ∈ l, x.receipt = nextReceipt^[j] n) : False := by
  have inj : Set.InjOn (fun j => nextReceipt^[j] n) (Finset.range (l.length + 1)) := by
    intro i hi j hj e
    simp only [Finset.coe_range, Set.mem_Iio] at hi hj
    simp only [nextReceipt_iterate h1 h2] at e
    omega
  have sub : (Finset.range (l.length + 1)).image (fun j => nextReceipt^[j] n) ⊆ (l.map Record.receipt).toFinset := by
    intro m hm
    obtain ⟨j, hj, rfl⟩ := Finset.mem_image.mp hm
    obtain ⟨x, hx, e⟩ := held j (by simpa [Nat.lt_succ_iff] using hj)
    simpa using ⟨x, hx, e⟩
  have card := Finset.card_le_card sub
  rw [Finset.card_image_of_injOn inj, Finset.card_range] at card
  have := card.trans (List.toFinset_card_le _)
  simp at this

/-- The fresh receipt is the first free one from the counter on (R3). -/
theorem freshReceipt_spec {s : State} (h : receiptsOrdered s) :
    (∃ k, s.freshReceipt = nextReceipt^[k] s.cr.receiptCounter ∧
      ∀ j < k, ∃ x ∈ s.cr.records, x.receipt = nextReceipt^[j] s.cr.receiptCounter) ∧
    (∀ x ∈ s.cr.records, x.receipt ≠ s.freshReceipt) ∧ 1 ≤ s.freshReceipt ∧ s.freshReceipt ≤ 65535 := by
  obtain ⟨slots, -, -, h1, h2⟩ := h
  obtain ⟨k, hk, e, held, free⟩ := searchReceipt_spec s.cr.records s.cr.records.length s.cr.receiptCounter
  have e : s.freshReceipt = nextReceipt^[k] s.cr.receiptCounter := e
  refine ⟨⟨k, e, held⟩, fun x hx ex => ?_, by rw [e]; exact nextReceipt_iterate_range h1 h2 k⟩
  obtain hlt | rfl := hk.lt_or_eq
  · exact free hlt x hx (ex.trans e)
  · refine exists_free_receipt (Nat.lt_of_le_of_lt slots (by decide)) h1 h2 fun j hj => ?_
    obtain hj | rfl := hj.lt_or_eq
    · exact held j hj
    · exact ⟨x, hx, ex.trans e⟩

theorem nextReceipt_range {n : Nat} (h : n ≤ 65535) : 1 ≤ nextReceipt n ∧ nextReceipt n ≤ 65535 := by
  unfold nextReceipt; split <;> omega

/-! ## Entries of the tag index and of the handover timers -/

theorem insertTag_perm (t : Tag) (n : Nat) (l : List (Tag × Nat)) : (insertTag t n l).Perm ((t, n) :: l) := by
  induction l with
  | nil => exact .refl _
  | cons x rest ih =>
    unfold insertTag
    split
    · exact .refl _
    · exact (ih.cons x).trans (.swap _ x rest)

/-- Tags in rising order, as the tag index holds them (R14). -/
def TagsRising (l : List (Tag × Nat)) : Prop := l.Pairwise fun a b => a.1.toNat < b.1.toNat

theorem TagsRising.insertTag {l : List (Tag × Nat)} (h : TagsRising l) {t : Tag} (ht : ∀ e ∈ l, e.1 ≠ t) (n : Nat) :
    TagsRising (insertTag t n l) := by
  induction l with
  | nil => exact List.pairwise_singleton _ _
  | cons x rest ih =>
    obtain ⟨hx, hrest⟩ := List.pairwise_cons.mp h
    unfold Sys2Proof.Machine.insertTag
    split
    next hlt =>
      refine List.pairwise_cons.mpr ⟨fun e he => ?_, h⟩
      obtain rfl | he := List.mem_cons.mp he
      · exact hlt
      · exact hlt.trans (hx e he)
    next hge =>
      refine List.pairwise_cons.mpr ⟨fun e he => ?_, ih hrest fun e he => ht e (List.mem_cons_of_mem x he)⟩
      obtain rfl | he := List.mem_cons.mp ((insertTag_perm t n rest).mem_iff.mp he)
      · exact lt_of_le_of_ne (Nat.le_of_not_lt hge) fun e => ht x (by simp) (BitVec.eq_of_toNat_eq e)
      · exact hx e he

/-- A tag that the index has no entry for. -/
theorem lookup_eq_none {l : List (Tag × Nat)} {t : Tag} : l.lookup t = none ↔ ∀ e ∈ l, e.1 ≠ t := by
  rw [List.lookup_eq_none_iff]
  exact forall₂_congr fun e _ => by simp [ne_comm]

theorem mem_of_lookup {l : List (Tag × Nat)} {t : Tag} {n : Nat} (h : l.lookup t = some n) : (t, n) ∈ l := by
  induction l with
  | nil => simp at h
  | cons x rest ih =>
    obtain ⟨u, m⟩ := x
    rw [List.lookup_cons] at h
    split at h
    next e => simp_all
    next => exact List.mem_cons_of_mem _ (ih h)

theorem insertTimer_perm (n minutes : Nat) (l : List (Nat × Nat)) :
    (insertTimer n minutes l).Perm ((n, minutes) :: l) := by
  induction l with
  | nil => exact .refl _
  | cons x rest ih =>
    unfold insertTimer
    split
    · exact .refl _
    · exact (ih.cons x).trans (.swap _ x rest)

end Sys2Proof.CustodyProofs
end

section
/-! PROOF. The part of the state that the register's invariants speak of, the ways in which a command changes it, and that
each of them keeps the register and the custody right (R1 to R16, R71, R118, R153). -/

namespace Sys2Proof.CustodyProofs

open Sys2Proof.Machine Sys2Proof.Safety

/-! ## The ledger -/

/-- The register's records, index, counter and lists, what the pockets hold, and the handover timers. -/
structure Ledger where
  records : List Record
  tagIndex : List (Tag × Nat)
  receiptCounter : Nat
  lists : Vector (List Nat) 21
  /-- The totals of each pocket, its capacity left out. -/
  holdings : Fin 21 → Pocket
  timers : List (Nat × Nat)

/-- The ledger of a state. -/
def ledger (s : State) : Ledger where
  records := s.cr.records
  tagIndex := s.cr.tagIndex
  receiptCounter := s.cr.receiptCounter
  lists := s.cr.lists
  holdings := fun p => { s.pcc.pockets[p] with capacity := 0 }
  timers := s.rc.handoverTimers

theorem ledger_eq_iff {s t : State} : ledger t = ledger s ↔
    t.cr.records = s.cr.records ∧ t.cr.tagIndex = s.cr.tagIndex ∧ t.cr.receiptCounter = s.cr.receiptCounter ∧
      t.cr.lists = s.cr.lists ∧
      (∀ p : Fin 21, ({ t.pcc.pockets[p] with capacity := 0 } : Pocket) = { s.pcc.pockets[p] with capacity := 0 }) ∧
      t.rc.handoverTimers = s.rc.handoverTimers := by
  simp only [ledger, Ledger.mk.injEq, funext_iff]

/-! ## The changes -/

/-- What a change of a record in its place keeps: its receipt, tag, claim, size class and location, whether it is in custody,
in INTAKE or STAGED, and, where it stands in a pocket, its mass and advice. -/
structure Kept (r r' : Record) : Prop where
  receipt : r'.receipt = r.receipt
  tag : r'.tag = r.tag
  claims : r'.claims = r.claims
  size : r'.size = r.size
  location : r'.location = r.location
  custody : r'.state.inCustody = r.state.inCustody
  intake : r'.state = .intake ↔ r.state = .intake
  staged : r'.state = .staged ↔ r.state = .staged
  stands : located r → located r'
  mark : markRight r → markRight r'
  pending : r'.verdict = some .pending → r.verdict = some .pending ∨ r.state.inCustody = true
  values : located r → ∀ p, r.location = .pocket p → r'.mass = r.mass ∧ r'.advice = r.advice

theorem Kept.refl (r : Record) : Kept r r where
  receipt := rfl
  tag := rfl
  claims := rfl
  size := rfl
  location := rfl
  custody := rfl
  intake := .rfl
  staged := .rfl
  stands := id
  mark := id
  pending := .inl
  values := fun _ _ _ => ⟨rfl, rfl⟩

/-- Two records with the same receipt and the same values for a pocket's totals. -/
structure Alike (x r : Record) : Prop where
  receipt : r.receipt = x.receipt
  size : r.size = x.size
  mass : r.mass = x.mass
  advice : r.advice = x.advice

/-- The changes of the ledger that leave the drop's record as it is. -/
inductive Change : State → State → Prop
  /-- Nothing of the ledger changes. -/
  | same {s t : State} (h : ledger t = ledger s) : Change s t
  /-- Records change in their places. -/
  | edit {s : State} (f : Record → Record) (h : receiptsOrdered s → ∀ x ∈ s.cr.records, Kept x (f x)) :
      Change s (s.setRecords (s.cr.records.map f))
  /-- An advice opens a record (R121). -/
  | advise {s : State} {tag : Tag} {a : Advice} (room : 1 ≤ s.freeSlots) (free : s.claimant tag = none) :
      Change s (s.create (advisedRecord tag a))
  /-- An ADVISED or MISSING record is removed (R130, R131). -/
  | withdraw {s : State} {r : Record} (hr : r ∈ s.cr.records) (h : r.state.inCustody = false) :
      Change s (s.remove r.receipt)
  /-- Every record is removed, all of them ADVISED or MISSING (R29). -/
  | wipe {s : State} (h : ∀ r ∈ s.cr.records, r.state.inCustody = false) : Change s s.wipe
  /-- An advice attaches to an unadvised record in a pocket (R124, R125). -/
  | attach {s : State} {r : Record} {a : Advice} {m : AdviceMark} (hr : r ∈ s.cr.records)
      (h : r.state = .grace ∨ r.state = .held ∧ r.mark = .none) (hm : m ≠ .none) : Change s (s.attach r a m)
  /-- A HELD record is staged (R10). -/
  | stage {s : State} {r : Record} {q : Fin 21} (hr : r ∈ s.cr.records) (hq : r.receipt ∈ s.cr.lists[q])
      (h : r.state = .held) : Change s (s.stage r q)
  /-- A STAGED or OVERDUE record is returned (R11). -/
  | giveBack {s : State} {r : Record} {q : Fin 21} (hr : r ∈ s.cr.records)
      (h : r.state = .staged ∨ r.state = .overdue) : Change s (s.giveBack r q)
  /-- A STAGED record is OVERDUE (R153). -/
  | overdue {s : State} {r : Record} (hr : r ∈ s.cr.records) (h : r.state = .staged) :
      Change s ((s.update r.receipt fun x => { x with state := .overdue }).stopHandover r.receipt)
  /-- The handover timers are those of the STAGED records, started anew (R26). -/
  | rehand {s t : State} (interval : Nat) (h : ledger t = { ledger s with
      timers := (s.cr.records.filter fun r => r.state == .staged).map fun r => (r.receipt, interval) }) : Change s t

/-- The changes of the ledger in which the drop's record comes or leaves INTAKE. -/
inductive DropChange : State → State → Prop
  /-- Identification opens a record (R5). -/
  | opened {s : State} {tag : Option Tag} {claims : Bool} {cause : Option Cause} {size : Option Nat}
      (room : 1 ≤ s.freeSlots) (free : ∀ t, claims = true → tag = some t → s.claimant t = none) :
      DropChange s (s.create (droppedRecord tag claims cause size))
  /-- Identification matches an ADVISED or MISSING record (R5). -/
  | matched {s : State} {r : Record} {size : Option Nat} (hr : r ∈ s.cr.records)
      (h : r.state = .advised ∨ r.state = .missing) : DropChange s (s.update r.receipt fun x => x.matched size)
  /-- The drop's record is placed into a pocket (R7, R112). -/
  | placed {s : State} {x r : Record} {p : Fin 21} (hx : x ∈ s.cr.records) (h : x.state = .intake) (hr : Alike x r) :
      DropChange s (s.place r p)
  /-- The drop is removed from the drawer by hand (R113). -/
  | takenOut {s : State} {r : Record} (hr : r ∈ s.cr.records) (h : r.state = .intake) :
      DropChange s ((s.update r.receipt fun x =>
        { x with state := .staged, location := .out, countRequired := true, jammed := false }).startHandover r.receipt)

/-- A STAGED or OVERDUE record is retired (R12, R155). -/
def Retired (s : State) (n : Nat) (t : State) : Prop :=
  ∃ r ∈ s.cr.records, r.receipt = n ∧ (r.state = .staged ∨ r.state = .overdue) ∧ ledger t = ledger (s.remove n)

/-- The register starts empty after a store loss (R27). -/
def StoreLost (t : State) : Prop :=
  ledger t = { records := [], tagIndex := [], receiptCounter := 1, lists := Vector.replicate 21 []
               holdings := fun _ => { capacity := 0 }, timers := [] }

/-! ## The register -/

theorem inCustody_iff {x : RecState} : x.inCustody = true ↔ x ≠ .advised ∧ x ≠ .missing := by
  cases x <;> simp [RecState.inCustody]

theorem not_inCustody_iff {x : RecState} : x.inCustody = false ↔ x = .advised ∨ x = .missing := by
  cases x <;> simp [RecState.inCustody]

/-- A record is where its state says, and PENDING only in custody (R4, R42). -/
def Sound (r : Record) : Prop := located r ∧ (r.verdict = some .pending → r.state ≠ .advised ∧ r.state ≠ .missing)

theorem Kept.sound {r r' : Record} (h : Kept r r') (hr : Sound r) : Sound r' := by
  refine ⟨h.stands hr.1, fun hp => inCustody_iff.mp ?_⟩
  rw [h.custody]
  obtain hp | hc := h.pending hp
  · exact inCustody_iff.mpr (hr.2 hp)
  · exact hc

theorem receiptsOrdered_congr {s t : State} (h : ledger t = ledger s) (hs : receiptsOrdered s) : receiptsOrdered t := by
  obtain ⟨hr, -, hc, -⟩ := ledger_eq_iff.mp h
  unfold receiptsOrdered slotsBounded at *
  rwa [hr, hc]

theorem registerRight_congr {s t : State} (h : ledger t = ledger s) (hs : registerRight s) : registerRight t := by
  refine ⟨receiptsOrdered_congr h hs.1, ?_⟩
  rw [(ledger_eq_iff.mp h).1]
  exact hs.2

/-- Records that keep their receipts, with the counter as it was, stay in order. -/
theorem receiptsOrdered_map {s t : State} {f : Record → Record} (hf : ∀ x ∈ s.cr.records, (f x).receipt = x.receipt)
    (hr : t.cr.records = s.cr.records.map f) (hc : t.cr.receiptCounter = s.cr.receiptCounter) (hs : receiptsOrdered s) :
    receiptsOrdered t := by
  obtain ⟨slots, rising, range, counter⟩ := hs
  unfold receiptsOrdered slotsBounded
  rw [hr, hc]
  refine ⟨by simpa [slotsBounded] using slots, Rising.map rising hf, fun r hr => ?_, counter⟩
  obtain ⟨x, hx, rfl⟩ := List.mem_map.mp hr
  rw [hf x hx]
  exact range x hx

theorem receiptsOrdered_updateReceipt {s t : State} {n : Nat} {f : Record → Record}
    (hr : t.cr.records = updateReceipt s.cr.records n f) (hf : ∀ x, (f x).receipt = x.receipt)
    (hc : t.cr.receiptCounter = s.cr.receiptCounter) (hs : receiptsOrdered s) : receiptsOrdered t :=
  receiptsOrdered_map (f := fun r => if r.receipt = n then f r else r)
    (fun x _ => by split; exacts [hf x, rfl]) hr hc hs

/-- A record that changes in the register, its receipt kept, leaves the register right when it is sound after. -/
theorem registerRight_updateReceipt {s t : State} {r : Record} {f : Record → Record} (hmem : r ∈ s.cr.records)
    (hr : t.cr.records = updateReceipt s.cr.records r.receipt f) (hf : ∀ x, (f x).receipt = x.receipt)
    (hc : t.cr.receiptCounter = s.cr.receiptCounter) (hsound : Sound r → Sound (f r)) (hs : registerRight s) :
    registerRight t := by
  refine ⟨receiptsOrdered_updateReceipt hr hf hc hs.1, fun y hy => ?_⟩
  rw [hr] at hy
  obtain ⟨x, hx, rfl⟩ := mem_updateReceipt.mp hy
  split
  next e =>
    obtain rfl := (rising_of_receiptsOrdered hs.1).eq_of_receipt hx hmem e
    exact hsound (hs.2 x hx)
  next => exact hs.2 x hx

theorem receiptsOrdered_create {s : State} {make : Nat → Record} (room : 1 ≤ s.freeSlots)
    (hm : ∀ n, (make n).receipt = n) (hs : receiptsOrdered s) : receiptsOrdered (s.create make) := by
  obtain ⟨-, free, low, high⟩ := freshReceipt_spec hs
  obtain ⟨slots, rising, range, -⟩ := hs
  refine ⟨?_, Rising.insertRecord rising (by simpa [hm] using free), fun r hr => ?_, nextReceipt_range high⟩
  · have := (insertRecord_perm (make s.freshReceipt) s.cr.records).length_eq
    simp only [State.freeSlots, Config.slots] at room
    simp only [slotsBounded, State.create, this, List.length_cons]
    omega
  · obtain rfl | hr := mem_insertRecord.mp hr
    · simpa [hm] using ⟨low, high⟩
    · exact range r hr

theorem registerRight_create {s : State} {make : Nat → Record} (room : 1 ≤ s.freeSlots)
    (hm : ∀ n, (make n).receipt = n) (hsound : ∀ n, Sound (make n)) (hs : registerRight s) :
    registerRight (s.create make) := by
  refine ⟨receiptsOrdered_create room hm hs.1, fun r hr => ?_⟩
  obtain rfl | hr := mem_insertRecord.mp hr
  · exact hsound _
  · exact hs.2 r hr

theorem receiptsOrdered_remove {s : State} (n : Nat) (hs : receiptsOrdered s) : receiptsOrdered (s.remove n) := by
  obtain ⟨slots, rising, range, counter⟩ := hs
  exact ⟨(List.length_filter_le _ _).trans slots, rising.filter _, fun r hr => range r (List.mem_of_mem_filter hr), counter⟩

theorem registerRight_remove {s : State} (n : Nat) (hs : registerRight s) : registerRight (s.remove n) :=
  ⟨receiptsOrdered_remove n hs.1, fun r hr => hs.2 r (List.mem_of_mem_filter hr)⟩

/-- An empty register with its counter in range is right. -/
theorem registerRight_of_empty {t : State} (hr : t.cr.records = []) (hc : t.cr.receiptCounter = 1) : registerRight t := by
  simp [registerRight, receiptsOrdered, slotsBounded, hr, hc]

theorem sound_advisedRecord (tag : Tag) (a : Advice) (n : Nat) : Sound (advisedRecord tag a n) := by
  simp [Sound, located, advisedRecord]

theorem sound_droppedRecord (tag : Option Tag) (claims : Bool) (cause : Option Cause) (size : Option Nat) (n : Nat) :
    Sound (droppedRecord tag claims cause size n) := by
  simp [Sound, located, droppedRecord]

theorem sound_placed (r : Record) (p : Fin 21) (g : Nat) (c : Option Nat) : Sound (r.placed p g c) := by
  unfold Sound located Record.placed
  cases r.toGrace g <;> simp

/-- Two changes of the same record, one after the other. -/
theorem updateReceipt_updateReceipt {l : List Record} {n : Nat} {f g : Record → Record}
    (hf : ∀ x, (f x).receipt = x.receipt) :
    updateReceipt (updateReceipt l n f) n g = updateReceipt l n fun x => g (f x) := by
  unfold updateReceipt
  rw [List.map_map]
  refine List.map_congr_left fun x _ => ?_
  by_cases e : x.receipt = n <;> simp [e, hf]

/-- The records after a job has been queued for one: its verdict is PENDING (R53). -/
theorem queueJob_records (s : State) (n : Nat) (tag : Option Tag) :
    (s.queueJob n tag).cr.records = updateReceipt s.cr.records n fun r => { r with verdict := some .pending } := by
  simp [State.queueJob]

/-- What an attachment makes of its record (R124). -/
def attached (a : Advice) (m : AdviceMark) (x : Record) : Record :=
  { x with advice := some a, mark := m, state := .held, grace := .none, verdict := some .pending }

theorem attach_records (s : State) (r : Record) (a : Advice) (m : AdviceMark) :
    (s.attach r a m).cr.records = updateReceipt s.cr.records r.receipt (attached a m) := by
  simp only [State.attach, queueJob_records, State.raiseDeclared_cr, State.update_records]
  exact updateReceipt_updateReceipt fun _ => rfl

theorem place_records (s : State) (r : Record) (p : Fin 21) :
    (s.place r p).cr.records =
      updateReceipt s.cr.records r.receipt fun x => x.placed p s.cr.graceInterval s.ls.clock := by
  simp [State.place, State.appendList, State.setList]

theorem stage_records (s : State) (r : Record) (q : Fin 21) :
    (s.stage r q).cr.records = updateReceipt s.cr.records r.receipt fun x =>
      { x with state := .staged, location := .out, countRequired := countRequired s.rc.policy r } := by
  simp [State.stage, State.dropFromList, State.setList]

theorem giveBack_records (s : State) (r : Record) (q : Fin 21) :
    (s.giveBack r q).cr.records = updateReceipt s.cr.records r.receipt fun x =>
      { x with state := .held, location := .pocket q, countRequired := false } := by
  simp [State.giveBack, State.appendList, State.setList]

/-- Every change that leaves the drop's record keeps the receipts in order. -/
theorem Change.keeps_receiptsOrdered {s t : State} (h : Change s t) (hs : receiptsOrdered s) : receiptsOrdered t := by
  cases h with
  | same h => exact receiptsOrdered_congr h hs
  | edit f h => exact receiptsOrdered_map (fun x hx => (h hs x hx).receipt) rfl rfl hs
  | advise room free => exact receiptsOrdered_create room (fun _ => rfl) hs
  | withdraw hr h => exact receiptsOrdered_remove _ hs
  | wipe h => exact (registerRight_of_empty rfl rfl).1
  | attach hr h hm => exact receiptsOrdered_updateReceipt (attach_records ..) (fun _ => rfl) (by simp) hs
  | stage hr hq h => exact receiptsOrdered_updateReceipt (stage_records ..) (fun _ => rfl) (by simp) hs
  | giveBack hr h => exact receiptsOrdered_updateReceipt (giveBack_records ..) (fun _ => rfl) (by simp) hs
  | overdue hr h => exact receiptsOrdered_updateReceipt rfl (fun _ => rfl) rfl hs
  | rehand i h =>
    have hr : t.cr.records = s.cr.records := congrArg Ledger.records h
    have hc : t.cr.receiptCounter = s.cr.receiptCounter := congrArg Ledger.receiptCounter h
    exact receiptsOrdered_map (f := id) (fun _ _ => rfl) (by rw [hr, List.map_id]) hc hs

/-- Every change that leaves the drop's record keeps the register right. -/
theorem Change.keeps_registerRight {s t : State} (h : Change s t) (hs : registerRight s) : registerRight t := by
  cases h with
  | same h => exact registerRight_congr h hs
  | edit f h =>
    refine ⟨(Change.edit f h).keeps_receiptsOrdered hs.1, fun r hr => ?_⟩
    obtain ⟨x, hx, rfl⟩ := List.mem_map.mp hr
    exact (h hs.1 x hx).sound (hs.2 x hx)
  | advise room free => exact registerRight_create room (fun _ => rfl) (sound_advisedRecord _ _) hs
  | withdraw hr h => exact registerRight_remove _ hs
  | wipe h => exact registerRight_of_empty rfl rfl
  | @attach r a m hr h hm =>
    refine registerRight_updateReceipt hr (attach_records ..) (fun _ => rfl) (by simp)
      (fun hsound => ⟨?_, fun _ => by simp [attached]⟩) hs
    have hloc := hsound.1
    unfold located at hloc ⊢
    obtain h | ⟨h, -⟩ := h <;> simpa [attached, h] using hloc
  | stage hr hq h =>
    exact registerRight_updateReceipt hr (stage_records ..) (fun _ => rfl) (by simp) (fun _ => by simp [Sound, located]) hs
  | giveBack hr h =>
    exact registerRight_updateReceipt hr (giveBack_records ..) (fun _ => rfl) (by simp)
      (fun _ => by simp [Sound, located]) hs
  | overdue hr h =>
    refine registerRight_updateReceipt hr rfl (fun _ => rfl) rfl (fun hsound => ⟨?_, fun _ => by simp⟩) hs
    simpa [located, h] using hsound.1
  | rehand i h =>
    refine ⟨(Change.rehand i h).keeps_receiptsOrdered hs.1, ?_⟩
    rw [show t.cr.records = s.cr.records from congrArg Ledger.records h]
    exact hs.2

/-- Every change of the drop's record keeps the receipts in order. -/
theorem DropChange.keeps_receiptsOrdered {s t : State} (h : DropChange s t) (hs : receiptsOrdered s) :
    receiptsOrdered t := by
  cases h with
  | opened room free => exact receiptsOrdered_create room (fun _ => rfl) hs
  | matched hr h => exact receiptsOrdered_updateReceipt rfl (fun _ => rfl) rfl hs
  | placed hx h hr => exact receiptsOrdered_updateReceipt (place_records ..) (fun _ => rfl) (by simp) hs
  | takenOut hr h => exact receiptsOrdered_updateReceipt rfl (fun _ => rfl) rfl hs

/-- Every change of the drop's record keeps the register right. -/
theorem DropChange.keeps_registerRight {s t : State} (h : DropChange s t) (hs : registerRight s) : registerRight t := by
  cases h with
  | opened room free => exact registerRight_create room (fun _ => rfl) (sound_droppedRecord _ _ _ _) hs
  | matched hr h =>
    exact registerRight_updateReceipt hr rfl (fun _ => rfl) rfl (fun _ => by simp [Sound, located, Record.matched]) hs
  | @placed x r p hx h hr =>
    have records := place_records s r p
    rw [hr.receipt] at records
    exact registerRight_updateReceipt hx records (fun _ => rfl) (by simp) (fun _ => sound_placed ..) hs
  | takenOut hr h =>
    exact registerRight_updateReceipt hr rfl (fun _ => rfl) rfl (fun _ => by simp [Sound, located]) hs

end Sys2Proof.CustodyProofs
end

section
/-! PROOF. Every change of the ledger keeps custody right: marks, tag index, pocket lists, pocket totals and handover timers
agree with the records (R1, R9, R14, R16, R71, R118, R153). -/

namespace Sys2Proof.CustodyProofs

open Sys2Proof.Machine Sys2Proof.Safety

/-! ## Pocket totals as sums -/

/-- The four totals that a pocket keeps of its records (R71). -/
inductive Measure where
  | bags | used | declared | mass

/-- A total as a pocket keeps it. -/
def Measure.ofPocket : Measure → Pocket → Nat
  | .bags, x => x.bags
  | .used, x => x.used
  | .declared, x => x.declared
  | .mass, x => x.mass

/-- What a record adds to a total. -/
def Measure.ofRecord : Measure → Record → Nat
  | .bags, _ => 1
  | .used, r => r.size.getD 0
  | .declared, r => r.declaredTotal
  | .mass, r => r.mass.getD 0

/-- The sum of a measure over the records located in a pocket. -/
def total (l : List Record) (p : Fin 21) (m : Measure) : Nat :=
  ((l.filter fun r => r.location = .pocket p).map m.ofRecord).sum

theorem total_bags (l : List Record) (p : Fin 21) : total l p .bags = (l.filter fun r => r.location = .pocket p).length := by
  have one : Measure.bags.ofRecord = fun _ => 1 := rfl
  simp [total, one]

theorem total_declared (s : State) (p : Fin 21) : total s.cr.records p .declared =
    ((locatedIn s p).map fun r => match r.advice with | some a => a.declared | none => 0).sum := by
  refine congrArg List.sum (List.map_congr_left fun r _ => ?_)
  show (r.advice.map Advice.declared).getD 0 = _
  cases r.advice <;> rfl

theorem totalsRight_iff {s : State} :
    totalsRight s ↔ ∀ (p : Fin 21) (m : Measure), m.ofPocket s.pcc.pockets[p] = total s.cr.records p m := by
  refine forall_congr' fun p => ⟨fun ⟨bags, used, declared, mass⟩ m => ?_, fun h => ?_⟩
  · cases m with
    | bags => exact bags.trans (total_bags ..).symm
    | used => exact used
    | declared => exact declared.trans (total_declared ..).symm
    | mass => exact mass
  · exact ⟨(h .bags).trans (total_bags ..), h .used, (h .declared).trans (total_declared ..), h .mass⟩

/-- A record's share of a pocket's total. -/
def share (r : Record) (p : Fin 21) (m : Measure) : Nat := if r.location = .pocket p then m.ofRecord r else 0

theorem total_cons (r : Record) (l : List Record) (p : Fin 21) (m : Measure) :
    total (r :: l) p m = share r p m + total l p m := by
  unfold total share
  by_cases h : r.location = .pocket p <;> simp [h]

theorem total_append (k l : List Record) (p : Fin 21) (m : Measure) :
    total (k ++ l) p m = total k p m + total l p m := by
  simp [total]

theorem total_perm {k l : List Record} (h : k.Perm l) (p : Fin 21) (m : Measure) : total k p m = total l p m :=
  ((h.filter _).map _).sum_eq

theorem share_le_total {l : List Record} {r : Record} (h : r ∈ l) (p : Fin 21) (m : Measure) :
    share r p m ≤ total l p m := by
  obtain ⟨before, after, rfl⟩ := List.append_of_mem h
  rw [total_append, total_cons]
  omega

/-- When one record changes, a total loses its share before and gains its share after. -/
theorem Rising.total_updateReceipt {l : List Record} (h : Rising l) {x : Record} (hx : x ∈ l) (f : Record → Record)
    (p : Fin 21) (m : Measure) :
    total (updateReceipt l x.receipt f) p m + share x p m = total l p m + share (f x) p m := by
  obtain ⟨before, after, e, e'⟩ := h.updateReceipt_split hx f
  rw [e', e, total_append, total_append, total_cons, total_cons]
  omega

theorem total_map {l : List Record} {f : Record → Record} {p : Fin 21} {m : Measure}
    (h : ∀ x ∈ l, share (f x) p m = share x p m) : total (l.map f) p m = total l p m := by
  induction l with
  | nil => rfl
  | cons x rest ih =>
    rw [List.map_cons, total_cons, total_cons, h x (by simp), ih fun y hy => h y (List.mem_cons_of_mem x hy)]

theorem total_filter {l : List Record} {keep : Record → Bool} {p : Fin 21} {m : Measure}
    (h : ∀ x ∈ l, keep x = false → share x p m = 0) : total (l.filter keep) p m = total l p m := by
  induction l with
  | nil => rfl
  | cons x rest ih =>
    have ih := ih fun y hy => h y (List.mem_cons_of_mem x hy)
    cases hk : keep x with
    | true => rw [List.filter_cons_of_pos hk, total_cons, total_cons, ih]
    | false => rw [List.filter_cons_of_neg (by simp [hk]), total_cons, h x (by simp) hk, Nat.zero_add, ih]

theorem share_eq_zero {r : Record} {p : Fin 21} (h : r.location ≠ .pocket p) (m : Measure) : share r p m = 0 := if_neg h

theorem share_eq {r : Record} {p : Fin 21} (h : r.location = .pocket p) (m : Measure) : share r p m = m.ofRecord r :=
  if_pos h

/-! ## What the invariants say of one record -/

section OneRecord

variable {s : State} {r : Record} (hreg : registerRight s) (hr : r ∈ s.cr.records)

include hreg hr

theorem mem_lists_iff (hlists : listsRight s) (p : Fin 21) : r.receipt ∈ s.cr.lists[p] ↔ r.location = .pocket p := by
  rw [(hlists p).2]
  constructor
  · rintro ⟨x, hx, e⟩
    obtain ⟨hmem, hloc⟩ := List.mem_filter.mp hx
    obtain rfl := (rising_of_receiptsOrdered hreg.1).eq_of_receipt hmem hr e
    simpa using hloc
  · exact fun h => ⟨r, List.mem_filter.mpr ⟨hr, by simpa using h⟩, rfl⟩

theorem mem_timers_iff (hover : handoversRight s) : r.receipt ∈ s.rc.handoverTimers.map Prod.fst ↔ r.state = .staged := by
  rw [hover.2]
  exact (rising_of_receiptsOrdered hreg.1).exists_receipt hr fun x => x.state = .staged

end OneRecord

/-- The receipts of the records located in a pocket. -/
theorem exists_locatedIn {s : State} {p : Fin 21} {n : Nat} :
    (∃ r ∈ locatedIn s p, r.receipt = n) ↔ ∃ r ∈ s.cr.records, r.receipt = n ∧ r.location = .pocket p := by
  simp only [locatedIn, List.mem_filter, decide_eq_true_eq]
  exact exists_congr fun r => by tauto

theorem not_inCustody_location {r : Record} (h : located r) (hc : r.state.inCustody = false) (p : Fin 21) :
    r.location ≠ .pocket p := by
  unfold located at h
  obtain e | e := not_inCustody_iff.mp hc <;> simp_all

/-! ## Custody under a change of one record -/

theorem custodyRight_congr {s t : State} (h : ledger t = ledger s) (hs : custodyRight s) : custodyRight t := by
  obtain ⟨hrec, hidx, -, hlists, hpockets, htimers⟩ := ledger_eq_iff.mp h
  obtain ⟨marks, index, lists, totals, handovers⟩ := hs
  refine ⟨by rwa [hrec], ?_, ?_, ?_, ?_⟩
  · unfold indexRight; rwa [hrec, hidx]
  · unfold listsRight locatedIn; rwa [hrec, hlists]
  · rw [totalsRight_iff] at totals ⊢
    rw [hrec]
    intro p m
    rw [← totals p m]
    have := hpockets p
    simp only [Pocket.mk.injEq, true_and] at this
    obtain ⟨used, bags, declared, mass⟩ := this
    cases m <;> simpa [Measure.ofPocket]
  · unfold handoversRight; rwa [hrec, htimers]

/-- One record changes, its receipt, tag and claim kept: custody stays right when the record's mark, the lists, the totals and
the handover timers follow it. -/
theorem custodyRight_updateReceipt {s t : State} {r : Record} {f : Record → Record} (hmem : r ∈ s.cr.records)
    (hrec : t.cr.records = updateReceipt s.cr.records r.receipt f) (hreceipt : (f r).receipt = r.receipt)
    (htag : (f r).tag = r.tag) (hclaims : (f r).claims = r.claims) (hidx : t.cr.tagIndex = s.cr.tagIndex)
    (hmark : markRight r → markRight (f r))
    (hlists : listsRight s → ∀ p : Fin 21, t.cr.lists[p].Nodup ∧ ∀ n, n ∈ t.cr.lists[p] ↔
      (n = r.receipt ∧ (f r).location = .pocket p) ∨ (n ≠ r.receipt ∧ n ∈ s.cr.lists[p]))
    (htotals : ∀ (p : Fin 21) (m : Measure), share r p m ≤ m.ofPocket s.pcc.pockets[p] →
      m.ofPocket t.pcc.pockets[p] + share r p m = m.ofPocket s.pcc.pockets[p] + share (f r) p m)
    (htimers : handoversRight s → (t.rc.handoverTimers.map Prod.fst).Nodup ∧
      ∀ n, n ∈ t.rc.handoverTimers.map Prod.fst ↔
        (n = r.receipt ∧ (f r).state = .staged) ∨ (n ≠ r.receipt ∧ n ∈ s.rc.handoverTimers.map Prod.fst))
    (hreg : registerRight s) (hs : custodyRight s) : custodyRight t := by
  have rising := rising_of_receiptsOrdered hreg.1
  obtain ⟨marks, index, lists, totals, handovers⟩ := hs
  have changed := fun n P => rising.exists_updateReceipt hmem hreceipt n P
  refine ⟨fun y hy => ?_, ⟨by rw [hidx]; exact index.1, fun u n => ?_⟩, fun p => ⟨(hlists lists p).1, fun n => ?_⟩, ?_,
    (htimers handovers).1, fun n => ?_⟩
  · rw [hrec] at hy
    obtain ⟨x, hx, rfl⟩ := mem_updateReceipt.mp hy
    split
    next e =>
      obtain rfl := rising.eq_of_receipt hx hmem e
      exact hmark (marks x hx)
    next => exact marks x hx
  · rw [hidx, index.2, hrec, changed, htag, hclaims]
    by_cases e : n = r.receipt
    · subst e
      simpa using rising.exists_receipt hmem fun x => x.claims = true ∧ x.tag = some u
    · simp [e]
  · rw [(hlists lists p).2, exists_locatedIn, hrec, changed, (lists p).2, exists_locatedIn]
  · rw [totalsRight_iff] at totals ⊢
    intro p m
    have before := totals p m
    have enough := share_le_total hmem p m
    have after := htotals p m (by omega)
    have sums := rising.total_updateReceipt hmem f p m
    rw [hrec]
    omega
  · rw [(htimers handovers).2, hrec, changed, handovers.2]

section Follow

variable {s t : State} {r x : Record}

/-- Lists that stay follow a record that stands in the same pocket before and after, or in none. -/
theorem lists_follow_stay (hreg : registerRight s) (hr : r ∈ s.cr.records)
    (hx : ∀ p, x.location = .pocket p ↔ r.location = .pocket p) (ht : t.cr.lists = s.cr.lists) (hlists : listsRight s)
    (p : Fin 21) : t.cr.lists[p].Nodup ∧ ∀ n, n ∈ t.cr.lists[p] ↔
      (n = r.receipt ∧ x.location = .pocket p) ∨ (n ≠ r.receipt ∧ n ∈ s.cr.lists[p]) := by
  rw [ht]
  refine ⟨(hlists p).1, fun n => ?_⟩
  by_cases e : n = r.receipt
  · subst e
    simpa [hx] using mem_lists_iff hreg hr hlists p
  · simp [e]

/-- Timers that stay follow a record that is STAGED before and after, or neither. -/
theorem timers_follow_stay (hreg : registerRight s) (hr : r ∈ s.cr.records) (hx : x.state = .staged ↔ r.state = .staged)
    (ht : t.rc.handoverTimers = s.rc.handoverTimers) (hover : handoversRight s) :
    (t.rc.handoverTimers.map Prod.fst).Nodup ∧ ∀ n, n ∈ t.rc.handoverTimers.map Prod.fst ↔
      (n = r.receipt ∧ x.state = .staged) ∨ (n ≠ r.receipt ∧ n ∈ s.rc.handoverTimers.map Prod.fst) := by
  rw [ht]
  refine ⟨hover.1, fun n => ?_⟩
  by_cases e : n = r.receipt
  · subst e; simp only [true_and, ne_eq, not_true, false_and, or_false, hx, mem_timers_iff hreg hr hover]
  · simp [e]

/-- A stopped timer follows a record that is not STAGED (R153). -/
theorem timers_follow_stop {n : Nat} (hx : x.state ≠ .staged)
    (ht : t.rc.handoverTimers = (s.stopHandover n).rc.handoverTimers) (hover : handoversRight s) :
    (t.rc.handoverTimers.map Prod.fst).Nodup ∧ ∀ k, k ∈ t.rc.handoverTimers.map Prod.fst ↔
      (k = n ∧ x.state = .staged) ∨ (k ≠ n ∧ k ∈ s.rc.handoverTimers.map Prod.fst) := by
  have keys : t.rc.handoverTimers.map Prod.fst = (s.rc.handoverTimers.map Prod.fst).filter (· != n) := by
    simp [ht, State.stopHandover, List.filter_map, Function.comp_def]
  rw [keys]
  exact ⟨hover.1.filter _, fun k => by simp [hx, and_comm]⟩

/-- A timer started follows a record that is STAGED (R153). -/
theorem timers_follow_start {n : Nat} (hx : x.state = .staged)
    (ht : t.rc.handoverTimers = (s.startHandover n).rc.handoverTimers) (hover : handoversRight s) :
    (t.rc.handoverTimers.map Prod.fst).Nodup ∧ ∀ k, k ∈ t.rc.handoverTimers.map Prod.fst ↔
      (k = n ∧ x.state = .staged) ∨ (k ≠ n ∧ k ∈ s.rc.handoverTimers.map Prod.fst) := by
  obtain ⟨nodup, keys⟩ := timers_follow_stop (n := n) (x := { x with state := .held }) (by simp) rfl hover
  have perm : (t.rc.handoverTimers.map Prod.fst).Perm (n :: (s.stopHandover n).rc.handoverTimers.map Prod.fst) := by
    rw [ht]
    exact (insertTimer_perm n _ _).map Prod.fst
  refine ⟨perm.nodup_iff.mpr (List.nodup_cons.mpr ⟨fun h => ?_, nodup⟩), fun k => ?_⟩
  · simp [keys] at h
  · rw [perm.mem_iff, List.mem_cons, keys]
    simp [hx]

end Follow

/-! ## A record comes into a pocket or leaves it -/

section Pockets

variable {s : State} {r x : Record} {q : Fin 21}

/-- A receipt appended to a list follows a record that comes into the pocket (R16). -/
theorem lists_follow_append (hreg : registerRight s) (hr : r ∈ s.cr.records) (hout : ∀ p, r.location ≠ .pocket p)
    (hx : x.location = .pocket q) (hlists : listsRight s) (p : Fin 21) :
    (s.appendList q r.receipt).cr.lists[p].Nodup ∧ ∀ n, n ∈ (s.appendList q r.receipt).cr.lists[p] ↔
      (n = r.receipt ∧ x.location = .pocket p) ∨ (n ≠ r.receipt ∧ n ∈ s.cr.lists[p]) := by
  have absent : ∀ p : Fin 21, r.receipt ∉ s.cr.lists[p] := fun p h => hout p ((mem_lists_iff hreg hr hlists p).mp h)
  have stays : ∀ (p : Fin 21) n, n ∈ s.cr.lists[p] → n ≠ r.receipt := fun p n h e => absent p (e ▸ h)
  by_cases e : q = p
  · subst e
    have hl : (s.appendList q r.receipt).cr.lists[q] = s.cr.lists[q] ++ [r.receipt] := by
      simp [State.appendList, State.setList]
    rw [hl]
    refine ⟨List.nodup_append.mpr ⟨(hlists q).1, by simp, fun a ha b hb => ?_⟩, fun n => ?_⟩
    · obtain rfl := List.mem_singleton.mp hb
      exact stays q a ha
    · simp only [List.mem_append, List.mem_singleton, hx, and_true]
      have := stays q n
      tauto
  · have hl : (s.appendList q r.receipt).cr.lists[p] = s.cr.lists[p] := by
      simp [State.appendList, State.setList, Vector.getElem_set_ne, Fin.val_ne_of_ne e]
    rw [hl]
    refine ⟨(hlists p).1, fun n => ?_⟩
    have := stays p n
    simp only [hx, Location.pocket.injEq, e, and_false, false_or]
    tauto

/-- A receipt dropped from a list follows a record that leaves the pocket (R10). -/
theorem lists_follow_drop (hreg : registerRight s) (hr : r ∈ s.cr.records) (hin : r.location = .pocket q)
    (hx : ∀ p, x.location ≠ .pocket p) (hlists : listsRight s) (p : Fin 21) :
    (s.dropFromList q r.receipt).cr.lists[p].Nodup ∧ ∀ n, n ∈ (s.dropFromList q r.receipt).cr.lists[p] ↔
      (n = r.receipt ∧ x.location = .pocket p) ∨ (n ≠ r.receipt ∧ n ∈ s.cr.lists[p]) := by
  by_cases e : q = p
  · subst e
    have hl : (s.dropFromList q r.receipt).cr.lists[q] = s.cr.lists[q].filter fun m => m != r.receipt := by
      simp [State.dropFromList, State.setList]
    rw [hl]
    exact ⟨(hlists q).1.filter _, fun n => by simp [hx, and_comm]⟩
  · have hl : (s.dropFromList q r.receipt).cr.lists[p] = s.cr.lists[p] := by
      simp [State.dropFromList, State.setList, Vector.getElem_set_ne, Fin.val_ne_of_ne e]
    rw [hl]
    refine ⟨(hlists p).1, fun n => ?_⟩
    have : n ∈ s.cr.lists[p] → n ≠ r.receipt := by
      rintro h rfl
      have := (mem_lists_iff hreg hr hlists p).mp h
      exact e (by simpa [hin] using this)
    simp only [hx, and_false, false_or]
    tauto

/-- The totals of pocket q after a record's values have been added. -/
theorem ofPocket_enterPocket (s : State) (p q : Fin 21) (r : Record) (m : Measure) :
    m.ofPocket (s.enterPocket q r).pcc.pockets[p] =
      m.ofPocket s.pcc.pockets[p] + if q = p then m.ofRecord r else 0 := by
  have h : (s.enterPocket q r).pcc.pockets = s.pcc.pockets.set q
      { s.pcc.pockets[q] with
        used := s.pcc.pockets[q].used + r.size.getD 0, bags := s.pcc.pockets[q].bags + 1
        declared := s.pcc.pockets[q].declared + r.declaredTotal, mass := s.pcc.pockets[q].mass + r.mass.getD 0 } := by
    simp [State.enterPocket]
  rw [h]
  by_cases e : q = p
  · subst e
    cases m <;> simp [Measure.ofPocket, Measure.ofRecord]
  · simp [Vector.getElem_set_ne, Fin.val_ne_of_ne e, e]

/-- The totals of pocket q after a record's values have been taken away. -/
theorem ofPocket_leavePocket (s : State) (p q : Fin 21) (r : Record) (m : Measure) :
    m.ofPocket (s.leavePocket q r).pcc.pockets[p] =
      m.ofPocket s.pcc.pockets[p] - if q = p then m.ofRecord r else 0 := by
  have h : (s.leavePocket q r).pcc.pockets = s.pcc.pockets.set q
      { s.pcc.pockets[q] with
        used := s.pcc.pockets[q].used - r.size.getD 0, bags := s.pcc.pockets[q].bags - 1
        declared := s.pcc.pockets[q].declared - r.declaredTotal, mass := s.pcc.pockets[q].mass - r.mass.getD 0 } := rfl
  rw [h]
  by_cases e : q = p
  · subst e
    cases m <;> simp [Measure.ofPocket, Measure.ofRecord]
  · simp [Vector.getElem_set_ne, Fin.val_ne_of_ne e, e]

end Pockets

theorem Measure.ofRecord_congr {x y : Record} (size : x.size = y.size) (mass : x.mass = y.mass)
    (advice : x.advice = y.advice) (m : Measure) : m.ofRecord x = m.ofRecord y := by
  cases m <;> simp [Measure.ofRecord, Record.declaredTotal, size, mass, advice]

theorem Alike.ofRecord {x r : Record} (h : Alike x r) (m : Measure) : m.ofRecord r = m.ofRecord x :=
  Measure.ofRecord_congr h.size h.mass h.advice m

end Sys2Proof.CustodyProofs
end

section
/-! PROOF. Each change of the ledger, case by case, keeps custody right (R1, R9, R14, R16, R71, R118, R153). -/

namespace Sys2Proof.CustodyProofs

open Sys2Proof.Machine Sys2Proof.Safety

/-! ## Every change keeps custody right -/

theorem Kept.share {r r' : Record} (h : Kept r r') (hr : located r) (p : Fin 21) (m : Measure) :
    share r' p m = share r p m := by
  unfold CustodyProofs.share
  rw [h.location]
  split
  next e =>
    obtain ⟨mass, advice⟩ := h.values hr p e
    exact Measure.ofRecord_congr h.size mass advice m
  next => rfl

/-- Records that change in their places leave custody right. -/
theorem custodyRight_edit {s : State} {f : Record → Record} (h : ∀ x ∈ s.cr.records, Kept x (f x))
    (hreg : registerRight s) (hs : custodyRight s) : custodyRight (s.setRecords (s.cr.records.map f)) := by
  obtain ⟨marks, index, lists, totals, handovers⟩ := hs
  have same : ∀ (n : Nat) (P Q : Record → Prop), (∀ x ∈ s.cr.records, P (f x) ↔ Q x) →
      ((∃ r ∈ s.cr.records.map f, r.receipt = n ∧ P r) ↔ ∃ r ∈ s.cr.records, r.receipt = n ∧ Q r) := by
    intro n P Q hPQ
    simp only [List.mem_map, exists_exists_and_eq_and]
    exact exists_congr fun x => and_congr_right fun hx => by rw [(h x hx).receipt, hPQ x hx]
  refine ⟨fun y hy => ?_, ⟨index.1, fun u n => ?_⟩, fun p => ⟨(lists p).1, fun n => ?_⟩, ?_, handovers.1, fun n => ?_⟩
  · obtain ⟨x, hx, rfl⟩ := List.mem_map.mp hy
    exact (h x hx).mark (marks x hx)
  · refine (index.2 u n).trans (same n _ _ fun x hx => ?_).symm
    rw [(h x hx).claims, (h x hx).tag]
  · refine ((lists p).2 n).trans ?_
    rw [exists_locatedIn, exists_locatedIn]
    exact (same n _ _ fun x hx => by rw [(h x hx).location]).symm
  · rw [totalsRight_iff] at totals ⊢
    exact fun p m => (totals p m).trans (total_map fun x hx => (h x hx).share (hreg.2 x hx).1 p m).symm
  · exact (handovers.2 n).trans (same n _ _ fun x hx => (h x hx).staged).symm

/-- What a new record is: no bag stands in a pocket for it, nor is it STAGED (R5, R121). -/
structure New (s : State) (make : Nat → Record) : Prop where
  room : 1 ≤ s.freeSlots
  receipt : ∀ n, (make n).receipt = n
  mark : ∀ n, markRight (make n)
  location : ∀ n p, (make n).location ≠ .pocket p
  state : ∀ n, (make n).state ≠ .staged
  free : ∀ n t, (make n).claims = true → (make n).tag = some t → s.claimant t = none

/-- A tag without a claiming record has no entry in a right tag index. -/
theorem unclaimed_of_claimant {s : State} {t : Tag} (hreg : registerRight s) (hidx : indexRight s)
    (h : s.claimant t = none) : unclaimed s t := by
  unfold unclaimed
  cases e : s.cr.tagIndex.lookup t with
  | none => rfl
  | some n =>
    obtain ⟨r, hr, rfl, -⟩ := (hidx.2 t n).mp (mem_of_lookup e)
    simp [State.claimant, State.indexed, e, record_of_mem hreg.1 hr] at h

theorem exists_insertRecord {r : Record} {l : List Record} (P : Record → Prop) :
    (∃ x ∈ insertRecord r l, P x) ↔ P r ∨ ∃ x ∈ l, P x := by
  simp [mem_insertRecord]

/-- The entry of a new record that claims its tag is added to the tag index (R14). -/
theorem mem_create_tagIndex {s : State} {make : Nat → Record} {t : Tag} {n : Nat} :
    (t, n) ∈ (s.create make).cr.tagIndex ↔
      (n = s.freshReceipt ∧ (make s.freshReceipt).claims = true ∧ (make s.freshReceipt).tag = some t) ∨
      (t, n) ∈ s.cr.tagIndex := by
  unfold State.create
  cases hc : (make s.freshReceipt).claims with
  | false => simp [hc]
  | true =>
    cases ht : (make s.freshReceipt).tag with
    | none => simp [hc, ht]
    | some u =>
      simp only [hc, ht, (insertTag_perm u _ _).mem_iff, List.mem_cons, Prod.mk.injEq, Option.some.injEq, true_and]
      rw [and_comm, eq_comm (a := u)]

theorem create_tagIndex_rising {s : State} {make : Nat → Record} (h : TagsRising s.cr.tagIndex)
    (free : ∀ t, (make s.freshReceipt).claims = true → (make s.freshReceipt).tag = some t → unclaimed s t) :
    TagsRising (s.create make).cr.tagIndex := by
  unfold State.create
  cases hc : (make s.freshReceipt).claims with
  | false => simpa [hc] using h
  | true =>
    cases ht : (make s.freshReceipt).tag with
    | none => simpa [hc, ht] using h
    | some u => simpa [hc, ht] using h.insertTag (lookup_eq_none.mp (free u hc ht)) _

theorem custodyRight_create {s : State} {make : Nat → Record} (h : New s make) (hreg : registerRight s)
    (hs : custodyRight s) : custodyRight (s.create make) := by
  obtain ⟨marks, index, lists, totals, handovers⟩ := hs
  have hrec : (s.create make).cr.records = insertRecord (make s.freshReceipt) s.cr.records := rfl
  refine ⟨fun r hr => ?_, ?_, fun p => ⟨(lists p).1, fun n => ?_⟩, ?_, handovers.1, fun n => ?_⟩
  · obtain rfl | hr := mem_insertRecord.mp hr
    · exact h.mark _
    · exact marks r hr
  · obtain ⟨rising, entries⟩ := index
    refine ⟨create_tagIndex_rising rising fun t hc ht => ?_, fun t n => ?_⟩
    · exact unclaimed_of_claimant hreg ⟨rising, entries⟩ (h.free s.freshReceipt t hc ht)
    · rw [mem_create_tagIndex, entries, hrec, exists_insertRecord, h.receipt, eq_comm (a := n)]
  · refine ((lists p).2 n).trans ?_
    rw [exists_locatedIn, exists_locatedIn, hrec, exists_insertRecord]
    simp [h.location]
  · rw [totalsRight_iff] at totals ⊢
    intro p m
    rw [hrec, total_perm (insertRecord_perm _ _), total_cons, share_eq_zero (h.location _ _), Nat.zero_add]
    exact totals p m
  · refine (handovers.2 n).trans ?_
    rw [hrec, exists_insertRecord]
    simp [h.state]

/-- A record that stands in no pocket leaves the register with its index entry and its timer, and custody stays right
(R12). -/
theorem custodyRight_remove {s : State} {r : Record} (hr : r ∈ s.cr.records) (hout : ∀ p, r.location ≠ .pocket p)
    (hreg : registerRight s) (hs : custodyRight s) : custodyRight (s.remove r.receipt) := by
  obtain ⟨marks, index, lists, totals, handovers⟩ := hs
  have hrec : (s.remove r.receipt).cr.records = s.cr.records.filter fun x => x.receipt != r.receipt := rfl
  have left : ∀ (n : Nat) (P : Record → Prop),
      (∃ x ∈ (s.remove r.receipt).cr.records, x.receipt = n ∧ P x) ↔
        n ≠ r.receipt ∧ ∃ x ∈ s.cr.records, x.receipt = n ∧ P x := by
    intro n P
    simp only [hrec, List.mem_filter, bne_iff_ne]
    constructor
    · rintro ⟨x, ⟨hx, hne⟩, rfl, hP⟩; exact ⟨hne, x, hx, rfl, hP⟩
    · rintro ⟨hne, x, hx, rfl, hP⟩; exact ⟨x, ⟨hx, hne⟩, rfl, hP⟩
  refine ⟨fun x hx => marks x (List.mem_of_mem_filter hx), ⟨index.1.filter _, fun t n => ?_⟩,
    fun p => ⟨(lists p).1, fun n => ?_⟩, ?_, ?_⟩
  · rw [left n fun x => x.claims = true ∧ x.tag = some t, ← index.2 t n]
    simp [State.remove, and_comm]
  · rw [exists_locatedIn, left, ← exists_locatedIn, ← (lists p).2]
    refine ⟨fun h => ⟨?_, h⟩, And.right⟩
    rintro rfl
    exact hout p ((mem_lists_iff hreg hr lists p).mp h)
  · rw [totalsRight_iff] at totals ⊢
    intro p m
    rw [hrec, total_filter]
    · exact totals p m
    · intro x hx e
      obtain rfl := (rising_of_receiptsOrdered hreg.1).eq_of_receipt hx hr (by simpa using e)
      exact share_eq_zero (hout p) m
  · obtain ⟨nodup, keys⟩ := timers_follow_stop (t := s.remove r.receipt) (n := r.receipt)
      (x := { r with state := .held }) (by simp) rfl handovers
    refine ⟨nodup, fun n => (keys n).trans ?_⟩
    rw [left, handovers.2]
    simp

/-- Custody of an empty register with no totals and no timers. -/
theorem custodyRight_of_empty {s : State} (hrec : s.cr.records = []) (hidx : s.cr.tagIndex = [])
    (hlists : ∀ p : Fin 21, s.cr.lists[p] = []) (hpockets : ∀ (p : Fin 21) (m : Measure), m.ofPocket s.pcc.pockets[p] = 0)
    (htimers : s.rc.handoverTimers = []) : custodyRight s := by
  refine ⟨by simp [hrec], by simp [indexRight, hrec, hidx], fun p => ?_, totalsRight_iff.mpr fun p m => ?_, ?_⟩
  · rw [hlists p]; simp [locatedIn, hrec]
  · rw [hpockets p m, hrec]; rfl
  · simp [handoversRight, hrec, htimers]

theorem custodyRight_wipe {s : State} (h : ∀ r ∈ s.cr.records, r.state.inCustody = false) (hreg : registerRight s)
    (hs : custodyRight s) : custodyRight s.wipe := by
  obtain ⟨-, -, lists, -, handovers⟩ := hs
  refine custodyRight_of_empty rfl rfl (fun p => ?_) (fun p m => ?_) ?_
  · refine List.eq_nil_iff_forall_not_mem.mpr fun n hn => ?_
    obtain ⟨r, hr, -, hloc⟩ := exists_locatedIn.mp (((lists p).2 n).mp hn)
    exact not_inCustody_location (hreg.2 r hr).1 (h r hr) p hloc
  · cases m <;> simp [State.wipe, Measure.ofPocket]
  · refine (List.map_eq_nil_iff (f := Prod.fst)).mp (List.eq_nil_iff_forall_not_mem.mpr fun n hn => ?_)
    obtain ⟨r, hr, -, hst⟩ := (handovers.2 n).mp hn
    simpa [RecState.inCustody, hst] using h r hr

/-- Handover timers started anew for the STAGED records follow them (R26). -/
theorem custodyRight_rehand {s t : State} (interval : Nat) (h : ledger t = { ledger s with
    timers := (s.cr.records.filter fun r => r.state == .staged).map fun r => (r.receipt, interval) })
    (hreg : registerRight s) (hs : custodyRight s) : custodyRight t := by
  obtain ⟨marks, index, lists, totals, -⟩ := hs
  -- the state with the old ledger but the new timers: its ledger is that of t
  let u : State := { s with rc := { s.rc with
    handoverTimers := (s.cr.records.filter fun r => r.state == .staged).map fun r => (r.receipt, interval) } }
  refine custodyRight_congr (s := u) h ⟨marks, index, lists, totals, ?_⟩
  have keys : u.rc.handoverTimers.map Prod.fst = (s.cr.records.filter fun r => r.state == .staged).map Record.receipt := by
    simp [u, Function.comp_def]
  unfold handoversRight
  rw [keys]
  refine ⟨List.pairwise_map.mpr ((rising_of_receiptsOrdered hreg.1).filter _ |>.imp fun h => h.ne), fun n => ?_⟩
  simp only [List.mem_map, List.mem_filter, beq_iff_eq]
  exact exists_congr fun r => by tauto

theorem location_of_inPocket {r : Record} (hr : located r) (h : r.state = .grace ∨ r.state = .held) :
    ∃ p, r.location = .pocket p := by
  unfold located at hr
  obtain h | h := h <;> simpa [h] using hr

theorem location_of_outside {r : Record} (hr : located r)
    (h : r.state = .intake ∨ r.state = .staged ∨ r.state = .overdue) (p : Fin 21) : r.location ≠ .pocket p := by
  unfold located at hr
  obtain h | h | h := h <;> simp_all

/-- An attachment raises the declared sum of the record's pocket by the advice's declared total (R77). -/
theorem ofPocket_attach {s : State} {r : Record} {a : Advice} {m : AdviceMark} {q : Fin 21}
    (hq : r.location = .pocket q) (hadvice : r.advice = none) (p : Fin 21) (x : Measure) :
    x.ofPocket (s.attach r a m).pcc.pockets[p] + share r p x =
      x.ofPocket s.pcc.pockets[p] + share (attached a m r) p x := by
  have hpockets : (s.attach r a m).pcc.pockets =
      s.pcc.pockets.set q { s.pcc.pockets[q] with declared := s.pcc.pockets[q].declared + a.declared } := by
    simp [State.attach, State.raiseDeclared, hq]
  have hloc : (attached a m r).location = .pocket q := hq
  rw [hpockets]
  by_cases e : q = p
  · subst e
    rw [share_eq hq, share_eq hloc]
    cases x <;> simp [Measure.ofPocket, Measure.ofRecord, Record.declaredTotal, attached, hadvice]
  · have hne : ∀ {y : Record}, y.location = .pocket q → share y p x = 0 := fun hy =>
      share_eq_zero (by simpa [hy] using e) x
    rw [hne hq, hne hloc]
    simp [Vector.getElem_set_ne, Fin.val_ne_of_ne e]

/-- The advice of an unadvised record is attached in its pocket (R124, R125). -/
theorem custodyRight_attach {s : State} {r : Record} {a : Advice} {m : AdviceMark} (hr : r ∈ s.cr.records)
    (h : r.state = .grace ∨ r.state = .held ∧ r.mark = .none) (hm : m ≠ .none) (hreg : registerRight s)
    (hs : custodyRight s) : custodyRight (s.attach r a m) := by
  have hstate : r.state = .grace ∨ r.state = .held := h.imp_right And.left
  obtain ⟨q, hq⟩ := location_of_inPocket (hreg.2 r hr).1 hstate
  have hadvice : r.advice = none := by
    obtain ⟨marked, -, grace, -⟩ := hs.1 r hr
    exact marked.mp (h.elim grace And.right)
  refine custodyRight_updateReceipt hr (attach_records ..) rfl rfl rfl (by simp) (fun _ => ?_) (fun hlists p => ?_)
    (fun p x _ => ofPocket_attach hq hadvice p x) (fun hover => ?_) hreg hs
  · simp [markRight, attached, hm]
  · exact lists_follow_stay hreg hr (fun _ => .rfl) (by simp) hlists p
  · refine timers_follow_stay hreg hr ?_ (by simp) hover
    obtain h | h := hstate <;> simp [attached, h]

/-- Staging a HELD record moves its receipt, its values and a timer along (R10, R77, R153). -/
theorem custodyRight_stage {s : State} {r : Record} {q : Fin 21} (hr : r ∈ s.cr.records)
    (hq : r.receipt ∈ s.cr.lists[q]) (h : r.state = .held) (hreg : registerRight s) (hs : custodyRight s) :
    custodyRight (s.stage r q) := by
  have hloc : r.location = .pocket q := (mem_lists_iff hreg hr hs.2.2.1 q).mp hq
  refine custodyRight_updateReceipt hr (stage_records ..) rfl rfl rfl (by simp) (fun hmark => ?_) (fun hlists p => ?_)
    (fun p m enough => ?_) (fun hover => timers_follow_start rfl rfl hover) hreg hs
  · simpa [markRight, h] using hmark
  · exact lists_follow_drop hreg hr hloc (by simp) hlists p
  · have hpocket : m.ofPocket (s.stage r q).pcc.pockets[p] =
        m.ofPocket s.pcc.pockets[p] - if q = p then m.ofRecord r else 0 := ofPocket_leavePocket s p q r m
    have before : share r p m = if q = p then m.ofRecord r else 0 := by simp [share, hloc]
    have after : share { r with state := .staged, location := .out, countRequired := countRequired s.rc.policy r } p m = 0 :=
      share_eq_zero (by simp) m
    omega

/-- Returning a record moves its receipt and its values along, and stops its timer (R11, R76, R148). -/
theorem custodyRight_giveBack {s : State} {r : Record} {q : Fin 21} (hr : r ∈ s.cr.records)
    (h : r.state = .staged ∨ r.state = .overdue) (hreg : registerRight s) (hs : custodyRight s) :
    custodyRight (s.giveBack r q) := by
  have hout := location_of_outside (hreg.2 r hr).1 (.inr h)
  refine custodyRight_updateReceipt hr (giveBack_records ..) rfl rfl rfl (by simp) (fun hmark => ?_) (fun hlists p => ?_)
    (fun p m _ => ?_) (fun hover => ?_) hreg hs
  · obtain h | h := h <;> simpa [markRight, h] using hmark
  · have hlists' : (s.giveBack r q).cr.lists = (s.appendList q r.receipt).cr.lists := by
      simp [State.giveBack, State.appendList, State.setList]
    rw [hlists']
    exact lists_follow_append hreg hr hout rfl hlists p
  · have hpocket : m.ofPocket (s.giveBack r q).pcc.pockets[p] =
        m.ofPocket s.pcc.pockets[p] + if q = p then m.ofRecord r else 0 :=
      ofPocket_enterPocket ((s.update r.receipt fun x =>
        { x with state := .held, location := .pocket q, countRequired := false }).appendList q r.receipt) p q r m
    rw [hpocket, share_eq_zero (hout p)]
    simp [share, Measure.ofRecord_congr (x := { r with state := .held, location := .pocket q, countRequired := false })
      (y := r) rfl rfl rfl]
  · exact timers_follow_stop (by simp) (by simp [State.giveBack, State.stopHandover]) hover

/-- Every change that leaves the drop's record keeps custody right. -/
theorem Change.keeps_custodyRight {s t : State} (h : Change s t) (hreg : registerRight s) (hs : custodyRight s) :
    custodyRight t := by
  cases h with
  | same h => exact custodyRight_congr h hs
  | edit f h => exact custodyRight_edit (h hreg.1) hreg hs
  | @advise tag a room free =>
    refine custodyRight_create ⟨room, fun _ => rfl, fun _ => ?_, ?_, ?_, fun _ t _ ht => ?_⟩ hreg hs
    · simp [markRight, advisedRecord]
    · simp [advisedRecord]
    · simp [advisedRecord]
    · obtain rfl := Option.some.inj ht
      exact free
  | withdraw hr h => exact custodyRight_remove hr (not_inCustody_location (hreg.2 _ hr).1 h) hreg hs
  | wipe h => exact custodyRight_wipe h hreg hs
  | attach hr h hm => exact custodyRight_attach hr h hm hreg hs
  | stage hr hq h => exact custodyRight_stage hr hq h hreg hs
  | giveBack hr h => exact custodyRight_giveBack hr h hreg hs
  | @overdue r hr h =>
    refine custodyRight_updateReceipt hr rfl rfl rfl rfl rfl (fun hmark => ?_)
      (fun hlists p => lists_follow_stay hreg hr (fun _ => .rfl) rfl hlists p) (fun p m _ => ?_)
      (fun hover => timers_follow_stop (by simp) rfl hover) hreg hs
    · simpa [markRight, h] using hmark
    · cases m <;> rfl
  | rehand i h => exact custodyRight_rehand i h hreg hs

theorem markRight_placed {r : Record} (hr : markRight r) (p : Fin 21) (g : Nat) (c : Option Nat) :
    markRight (r.placed p g c) := by
  unfold markRight at hr ⊢
  unfold Record.placed
  cases e : r.toGrace g with
  | false => simpa using hr.1
  | true =>
    have : r.mark = .none := by simp only [Record.toGrace, Bool.and_eq_true, beq_iff_eq] at e; exact e.1.2
    simpa [this] using hr.1

theorem share_placed (r : Record) (p q : Fin 21) (g : Nat) (c : Option Nat) (m : Measure) :
    share (r.placed q g c) p m = if q = p then m.ofRecord r else 0 := by
  have location : (r.placed q g c).location = .pocket q := rfl
  have values : m.ofRecord (r.placed q g c) = m.ofRecord r :=
    Measure.ofRecord_congr (x := r.placed q g c) (y := r) rfl rfl rfl m
  simp [share, location, values]

theorem place_lists (s : State) (r : Record) (p : Fin 21) :
    (s.place r p).cr.lists = (s.appendList p r.receipt).cr.lists := by
  simp [State.place, State.appendList, State.setList]

theorem ofPocket_place (s : State) (r : Record) (p q : Fin 21) (m : Measure) :
    m.ofPocket (s.place r q).pcc.pockets[p] = m.ofPocket s.pcc.pockets[p] + if q = p then m.ofRecord r else 0 := by
  unfold State.place
  rw [ofPocket_enterPocket]
  simp [State.appendList, State.setList]

/-- Placing the drop's record moves its receipt and its values along (R7, R16, R76). -/
theorem custodyRight_place {s : State} {x r : Record} {q : Fin 21} (hx : x ∈ s.cr.records) (h : x.state = .intake)
    (hr : Alike x r) (hreg : registerRight s) (hs : custodyRight s) : custodyRight (s.place r q) := by
  have hout := location_of_outside (hreg.2 x hx).1 (.inl h)
  have records := place_records s r q
  rw [hr.receipt] at records
  refine custodyRight_updateReceipt hx records rfl rfl rfl (by simp) (fun hmark => markRight_placed hmark ..)
    (fun hlists p => ?_) (fun p m _ => ?_) (fun hover => ?_) hreg hs
  · rw [place_lists, hr.receipt]
    exact lists_follow_append hreg hx hout rfl hlists p
  · rw [ofPocket_place, share_eq_zero (hout p), share_placed, hr.ofRecord, Nat.add_zero]
  · refine timers_follow_stay hreg hx ?_ (by simp) hover
    unfold Record.placed
    cases x.toGrace s.cr.graceInterval <;> simp [h]

/-- Every change of the drop's record keeps custody right. -/
theorem DropChange.keeps_custodyRight {s t : State} (h : DropChange s t) (hreg : registerRight s) (hs : custodyRight s) :
    custodyRight t := by
  cases h with
  | opened room free =>
    refine custodyRight_create ⟨room, fun _ => rfl, fun _ => ?_, ?_, ?_, fun _ t hc ht => free t hc ht⟩ hreg hs
    · simp [markRight, droppedRecord]
    · simp [droppedRecord]
    · simp [droppedRecord]
  | @matched r size hr h =>
    have hout := not_inCustody_location (hreg.2 r hr).1 (not_inCustody_iff.mpr h)
    refine custodyRight_updateReceipt hr rfl rfl rfl rfl rfl (fun hmark => ?_)
      (fun hlists p => lists_follow_stay hreg hr (fun p => ?_) rfl hlists p) (fun p m _ => ?_)
      (fun hover => timers_follow_stay hreg hr ?_ rfl hover) hreg hs
    · obtain h | h := h <;> simpa [markRight, h, Record.matched] using hmark.imp_right fun x => x.2
    · simp [Record.matched, hout p]
    · rw [share_eq_zero (hout p), share_eq_zero (by simp [Record.matched])]
      rfl
    · obtain h | h := h <;> simp [Record.matched, h]
  | placed hx h hr => exact custodyRight_place hx h hr hreg hs
  | @takenOut r hr h =>
    have hout := location_of_outside (hreg.2 r hr).1 (.inl h)
    refine custodyRight_updateReceipt hr rfl rfl rfl rfl rfl (fun hmark => ?_)
      (fun hlists p => lists_follow_stay hreg hr (fun p => ?_) rfl hlists p) (fun p m _ => ?_)
      (fun hover => timers_follow_start rfl rfl hover) hreg hs
    · simpa [markRight, h] using hmark
    · simp [hout p]
    · rw [share_eq_zero (hout p), share_eq_zero (by simp)]
      rfl

end Sys2Proof.CustodyProofs
end

section
/-! PROOF. What every command does to the ledger: a chain of changes, the retirement of one record by a CNFM, or the loss of
the store (R2 to R12, R27, R155). -/

namespace Sys2Proof.CustodyProofs

open Sys2Proof.Machine Sys2Proof.Safety

/-- A chain of changes that leave the drop's record as it is. -/
def Changes : State → State → Prop := Relation.ReflTransGen Change

/-- A chain of changes. -/
def Steps : State → State → Prop := Relation.ReflTransGen fun s t => Change s t ∨ DropChange s t

theorem Changes.refl (s : State) : Changes s s := Relation.ReflTransGen.refl

theorem Changes.trans {s t u : State} (h : Changes s t) (h' : Changes t u) : Changes s u := Relation.ReflTransGen.trans h h'

theorem Changes.of_change {s t : State} (h : Change s t) : Changes s t := .single h

theorem Changes.same {s t : State} (h : ledger t = ledger s) : Changes s t := .of_change (.same h)

/-- A change, and after it nothing more of the ledger. -/
theorem Changes.of_change_same {s t u : State} (h : Change s t) (h' : ledger u = ledger t) : Changes s u :=
  (Changes.of_change h).trans (.same h')

theorem Changes.trans_same {s t u : State} (h : Changes s t) (h' : ledger u = ledger t) : Changes s u :=
  h.trans (.same h')

theorem Changes.steps {s t : State} (h : Changes s t) : Steps s t :=
  Relation.ReflTransGen.mono (fun _ _ h => Or.inl h) _ _ h

theorem Steps.of_drop {s t u : State} (h : DropChange s t) (h' : Changes t u) : Steps s u :=
  Relation.ReflTransGen.head (.inr h) h'.steps

/-- What every change keeps, every chain of changes keeps. -/
theorem Steps.keeps {P : State → Prop} (change : ∀ {s t}, Change s t → P s → P t)
    (drop : ∀ {s t}, DropChange s t → P s → P t) {s t : State} (h : Steps s t) (hs : P s) : P t := by
  induction h with
  | refl => exact hs
  | tail _ h ih => exact h.elim (change · ih) (drop · ih)

theorem Changes.keeps {P : State → Prop} (change : ∀ {s t}, Change s t → P s → P t) {s t : State} (h : Changes s t)
    (hs : P s) : P t := by
  induction h with
  | refl => exact hs
  | tail _ h ih => exact change h ih

/-! ## Changes of one record in its place -/

/-- One record changes in its place. -/
theorem changes_update {s t : State} {r : Record} {f : Record → Record} (hr : r ∈ s.cr.records) (h : Kept r (f r))
    (ht : ledger t = ledger (s.update r.receipt f)) : Changes s t := by
  refine .of_change_same (.edit (fun x => if x.receipt = r.receipt then f x else x) fun hs x hx => ?_) ht
  split
  next e =>
    obtain rfl := (rising_of_receiptsOrdered hs).eq_of_receipt hx hr e
    exact h
  next => exact .refl x

/-- Every record changes in its place. -/
theorem changes_map {s t : State} {f : Record → Record} (h : ∀ x ∈ s.cr.records, Kept x (f x))
    (ht : ledger t = ledger (s.setRecords (s.cr.records.map f))) : Changes s t :=
  .of_change_same (.edit f fun _ => h) ht

theorem kept_jammed (r : Record) : Kept r (if r.state = .intake then { r with jammed := true } else r) := by
  split
  · exact { Kept.refl r with }
  · exact .refl r

theorem kept_atClose (r : Record) : Kept r r.atClose := by
  unfold Record.atClose
  split
  next e =>
    exact { Kept.refl r with
      custody := by simp [e, RecState.inCustody]
      intake := by simp [e]
      staged := by simp [e]
      stands := by simp [located, e]
      mark := by simp [markRight, e] }
  next => exact .refl r

/-- A record in INTAKE takes its mass (R105). -/
theorem kept_weighed (r : Record) (v : Int) (unsteady : Bool) : Kept r (if r.state = .intake then
    { r with mass := some (clampReading v), overRange := overRangeOf v, unsteady } else r) := by
  split
  next e => exact { Kept.refl r with values := fun hr p hp => absurd hp (location_of_outside hr (.inl e) p) }
  next => exact .refl r

/-- The drop's record takes its route, and its verdict is PENDING (R42, R53). -/
theorem kept_routed {r : Record} (h : r.state = .intake) (x : Route) :
    Kept r { r.routed x with verdict := some .pending } :=
  { Kept.refl r with pending := fun _ => .inr (by simp [h, RecState.inCustody]) }

theorem kept_withResult {r : Record} (h : r.state.inCustody = true) (c : CheckResult) : Kept r (r.withResult c) :=
  { Kept.refl r with pending := fun _ => .inr h }

theorem kept_graceExpired {r : Record} (h : r.state = .grace) : Kept r { r with state := .held, grace := .none } :=
  { Kept.refl r with
    custody := by simp [h, RecState.inCustody]
    intake := by simp [h]
    staged := by simp [h]
    stands := by simp [located, h]
    mark := by
      rintro ⟨marked, -, unadvised, -⟩
      simpa [markRight, unadvised h] using marked }

theorem kept_restarted (r : Record) (g : Nat) : Kept r (r.restarted g) := by
  cases e : r.state with
  | intake =>
    rw [show r.restarted g = { r with interrupted := true, jammed := true } by simp [Record.restarted, e]]
    exact { Kept.refl r with }
  | grace =>
    rw [show r.restarted g = { r with grace := some g } by simp [Record.restarted, e]]
    exact { Kept.refl r with
      mark := by
        rintro ⟨marked, before, unadvised, -⟩
        exact ⟨marked, before, unadvised, by simp [e]⟩ }
  | advised | held | staged | overdue | missing =>
    rw [show r.restarted g = r by simp [Record.restarted, e]]
    exact .refl r

/-- An ADVISED or MISSING record takes another advice (R122). -/
theorem kept_readvised {r : Record} (h : r.state.inCustody = false) (a : Advice) : Kept r { r with advice := some a } :=
  { Kept.refl r with
    mark := by
      rintro ⟨-, before, -, grace⟩
      have marked := before (not_inCustody_iff.mp h)
      have notGrace : r.state ≠ .grace := fun e => by simp [e, RecState.inCustody] at h
      exact ⟨by simp [marked], before, fun e => absurd e notGrace, grace⟩
    values := fun hr p hp => absurd hp (not_inCustody_location hr h p) }

/-! ## The operations -/

theorem changes_jam (s : State) : Changes s s.jam :=
  changes_map (f := fun r => if r.state = .intake then { r with jammed := true } else r) (fun r _ => kept_jammed r) (by
    simp [ledger, State.jam])

theorem changes_enterJammed (s : State) : Changes s s.enterJammed := (changes_jam s).trans_same (by simp [ledger, State.enterJammed])

theorem changes_carouselFault (s : State) : Changes s s.carouselFault := by
  unfold State.carouselFault
  dsimp only
  split
  · refine Changes.trans (t := (s.setPcc { s.pcc with drum := .fault, position := .none, lastDir := .none, queue := [] }))
      (.same rfl) ((changes_jam _).trans_same (by simp [ledger]))
  · exact .same (by simp [ledger])

theorem changes_offerIntake (s : State) (p : Fin 21) : Changes s (s.offerIntake p) := by
  unfold State.offerIntake
  split
  · exact changes_enterJammed s
  · exact .same (by simp [ledger])

theorem changes_decideRoute (s : State) : Changes s s.decideRoute := by
  unfold State.decideRoute
  split
  next => exact .refl s
  next r e =>
    obtain ⟨hr, hst⟩ := mem_of_intakeRecord e
    refine Changes.trans (changes_update (f := fun x => { x.routed (s.route r) with verdict := some .pending }) hr
      (kept_routed hst (s.route r)) ?_) (changes_offerIntake _ _)
    simp [ledger, queueJob_records, updateReceipt_updateReceipt, Record.routed]

theorem changes_takeRoute (s : State) : Changes s s.takeRoute := by
  unfold State.takeRoute
  split
  · exact changes_decideRoute s
  · exact .refl s

theorem changes_workOn (s : State) : Changes s s.workOn :=
  (Changes.same (t := s.startWau) (by simp [ledger])).trans (changes_takeRoute _)

theorem changes_takeValue (s : State) (v : Int) (unsteady : Bool) : Changes s (s.takeValue v unsteady) := by
  unfold State.takeValue State.enterRoute
  exact Changes.trans (changes_map (fun r _ => kept_weighed r v unsteady) (by simp [ledger])) (changes_takeRoute _)

theorem mem_of_jobRecord {s : State} {j : Job} {r : Record} (h : s.jobRecord j = some r) :
    r ∈ s.cr.records ∧ r.receipt = j.receipt ∧ r.tag = j.tag ∧ r.state.inCustody = true := by
  obtain ⟨hr, htest⟩ := Option.filter_eq_some_iff.mp h
  obtain ⟨hmem, hn⟩ := mem_of_record hr
  simp only [Bool.and_eq_true, beq_iff_eq] at htest
  exact ⟨hmem, hn, htest.1, htest.2⟩

theorem changes_finishHead (s : State) : Changes s s.finishHead := by
  unfold State.finishHead
  split
  next inputs j rest hw hq =>
    dsimp only
    split
    next writes =>
      cases e : s.jobRecord j with
      | none => simp [e] at writes
      | some r =>
        obtain ⟨hr, hn, -, hc⟩ := mem_of_jobRecord e
        rw [← hn]
        exact changes_update hr (kept_withResult hc inputs.check) rfl
    next => exact .same rfl
  next => exact .refl s

theorem changes_expireGrace (s : State) (n : Nat) : Changes s (s.expireGrace n) := by
  unfold State.expireGrace
  split
  next h =>
    obtain ⟨r, hr, htest⟩ := (Option.any_eq_true _ _).mp h
    obtain ⟨hmem, rfl⟩ := mem_of_record hr
    simp only [Bool.and_eq_true, beq_iff_eq] at htest
    exact changes_update hmem (kept_graceExpired htest.1) rfl
  next => exact .refl s

theorem changes_expireHandover (s : State) (n : Nat) : Changes s (s.expireHandover n) := by
  unfold State.expireHandover
  split
  next h =>
    simp only [Bool.and_eq_true] at h
    obtain ⟨r, hr, htest⟩ := (Option.any_eq_true _ _).mp h.1
    obtain ⟨hmem, rfl⟩ := mem_of_record hr
    exact .of_change_same (.overdue hmem (by simpa using htest)) rfl
  next => exact .refl s

theorem changes_stage {s t : State} {q : Fin 21} {test : Record → Bool} {r : Record}
    (h : s.firstHeld q test = some r) (ht : ledger t = ledger (s.stage r q)) : Changes s t := by
  obtain ⟨hr, hq, hst⟩ := mem_of_firstHeld h
  exact .of_change_same (.stage hr hq hst) ht

theorem ledger_afterStaging (s : State) (q : Fin 21) : ledger (s.afterStaging q) = ledger s := by
  unfold State.afterStaging
  split <;> simp [ledger]

theorem changes_giveBack {s t : State} {q : Fin 21} {r : Record} (hr : r ∈ s.cr.records)
    (h : r.state = .staged ∨ r.state = .overdue) (ht : ledger t = ledger (s.giveBack r q)) : Changes s t :=
  .of_change_same (.giveBack hr h) ht

theorem ledger_light (s : State) (l : Lamp) : ledger (s.light l) = ledger s := rfl

theorem changes_scanClaimant (s : State) (t : Tag) (q : Fin 21) : Changes s (s.scanClaimant t q) := by
  unfold State.scanClaimant
  split
  next => exact .same (ledger_light ..)
  next r e =>
    obtain ⟨hr, -⟩ := mem_of_claimant e
    cases hst : r.state with
    | staged | overdue =>
      dsimp only
      split
      · exact changes_giveBack hr (by simp [hst]) (ledger_light ..)
      · exact .same (ledger_light ..)
    | held => exact .same (ledger_light (s.raise _) _)
    | grace | advised | missing | intake => exact .same (ledger_light ..)

theorem changes_scan (s : State) (t : Tag) (atMs : Nat) (q : Fin 21) : Changes s (s.scan t atMs q) := by
  unfold State.scan
  split
  next => exact .same rfl
  next =>
    split
    next r e => exact changes_stage e (ledger_afterStaging _ _)
    next => exact changes_scanClaimant s t q

theorem changes_hatchRead (s : State) (x : TagRead) (atMs : Nat) : Changes s (s.hatchRead x atMs) := by
  have idle : Changes s s.restartIdle := .same (by simp [ledger])
  unfold State.hatchRead
  split
  next => exact .refl s
  next =>
    split
    next => split; exacts [.same rfl, .refl s]
    next => split; exacts [idle.trans (changes_scan ..), idle]

theorem changes_attach {s t : State} {r : Record} {a : Advice} {m : AdviceMark} (hr : r ∈ s.cr.records)
    (h : r.state = .grace ∨ r.state = .held ∧ r.mark = .none) (hm : m ≠ .none) (ht : ledger t = ledger (s.attach r a m)) :
    Changes s t := .of_change_same (.attach hr h hm) ht

theorem changes_advise (s : State) (tag : Tag) (a : Advice) : Changes s (s.advise tag a).1 := by
  unfold State.advise
  split
  next e =>
    split
    next room => exact .of_change (.advise (by omega) e)
    next => exact .refl s
  next r e =>
    obtain ⟨hr, -⟩ := mem_of_claimant e
    cases hst : r.state with
    | advised | missing => exact changes_update hr (kept_readvised (by simp [hst, RecState.inCustody]) a) rfl
    | intake | staged | overdue => exact .refl s
    | grace =>
      dsimp only
      split
      · exact changes_attach hr (.inl hst) (by simp) rfl
      · exact .refl s
    | held =>
      dsimp only
      split
      next => exact .refl s
      next hm =>
        split
        · exact changes_attach hr (.inr ⟨hst, not_not.mp hm⟩) (by simp) rfl
        · exact .refl s

theorem changes_withdrawAdvice (s : State) (tag : Tag) {wanted : RecState} (h : wanted.inCustody = false) :
    Changes s (s.withdrawAdvice tag wanted).1 := by
  unfold State.withdrawAdvice
  split
  · exact .refl s
  split
  next => exact .refl s
  next r e =>
    obtain ⟨hr, -⟩ := mem_of_claimant e
    split
    · exact .refl s
    split
    · exact .refl s
    next hst => exact .of_change_same (.withdraw hr (not_not.mp hst ▸ h)) (by simp [ledger, ok])

theorem ledger_afterPermit (s t : State) : ledger (s.afterPermit t) = ledger t := by
  unfold State.afterPermit
  split <;> simp [ledger]

end Sys2Proof.CustodyProofs
end

section
/-! PROOF. The changes of the drop's record by identification, tip and JAMC, and what a restart does to the ledger (R5, R7,
R26, R27, R61, R112, R113). -/

namespace Sys2Proof.CustodyProofs

open Sys2Proof.Machine Sys2Proof.Safety

/-! ## The commands that change the drop's record -/

theorem alike_update {s : State} (hs : receiptsOrdered s) {r : Record} (hr : r ∈ s.cr.records) (f : Record → Record)
    (hf : Alike (f r) r) (hst : (f r).state = r.state) :
    ∃ x ∈ (s.update r.receipt f).cr.records, x.state = r.state ∧ Alike x r := by
  obtain ⟨before, after, -, e⟩ := (rising_of_receiptsOrdered hs).updateReceipt_split hr f
  exact ⟨f r, by rw [State.update_records, e]; simp, hst, hf⟩

/-- JAMC acts on the INTAKE record: it is placed, or taken out of the drawer (R112, R113). -/
theorem steps_settleJam {s : State} (hs : receiptsOrdered s) {r : Record} (hr : s.intakeRecord = some r)
    (d : Disposition) : Steps s (s.settleJam r d) := by
  obtain ⟨hmem, hst⟩ := mem_of_intakeRecord hr
  cases d with
  | pocket p =>
    obtain ⟨x, hx, hxs, alike⟩ := alike_update hs hmem (fun x => { x with jammed := false }) ⟨rfl, rfl, rfl, rfl⟩ rfl
    have clear : Changes s (s.update r.receipt fun x => { x with jammed := false }) :=
      changes_update hmem { Kept.refl r with } rfl
    exact Relation.ReflTransGen.tail clear.steps (.inr (.placed hx (hxs.trans hst) alike))
  | removed => exact .of_drop (.takenOut hmem hst) (.refl _)

theorem ledger_leaveJammed (s : State) : ledger s.leaveJammed = ledger s := by
  simp [ledger, State.leaveJammed, State.clearReadings]

theorem droppable_of_createDropped {s t : State} {tag : Option Tag} {claims : Bool} {cause : Option Cause}
    (h : s.createDropped tag claims cause = some t) : 1 ≤ s.freeSlots ∧
      t = s.create (droppedRecord tag claims cause s.intake.readings.size) := by
  unfold State.createDropped at h
  split at h
  next room => exact ⟨room, (Option.some.inj h).symm⟩
  next => cases h

/-- Identification opens a record, which claims its tag only where no record does, or matches an ADVISED or MISSING one
(R5). -/
theorem openRecord_cases {s t : State} (h : s.openRecord = some t) :
    (∃ tag claims cause, 1 ≤ s.freeSlots ∧ (∀ x, claims = true → tag = some x → s.claimant x = none) ∧
        t = s.create (droppedRecord tag claims cause s.intake.readings.size)) ∨
      ∃ r ∈ s.cr.records, (r.state = .advised ∨ r.state = .missing) ∧
        t = s.update r.receipt fun x => x.matched s.intake.readings.size := by
  have dropped : ∀ {tag claims cause}, (∀ x, claims = true → tag = some x → s.claimant x = none) →
      s.createDropped tag claims cause = some t → ∃ tag claims cause, 1 ≤ s.freeSlots ∧
        (∀ x, claims = true → tag = some x → s.claimant x = none) ∧
          t = s.create (droppedRecord tag claims cause s.intake.readings.size) := fun free h =>
    ⟨_, _, _, (droppable_of_createDropped h).1, free, (droppable_of_createDropped h).2⟩
  unfold State.openRecord at h
  split at h
  · exact .inl (dropped (by simp) h)
  · exact .inl (dropped (by simp) h)
  · split at h
    next e => exact .inl (dropped (fun x _ hx => by rw [← Option.some.inj hx, e]) h)
    next r e =>
      obtain ⟨hr, -⟩ := mem_of_claimant e
      cases hst : r.state with
      | advised | missing =>
        simp only [hst, Option.some.injEq] at h
        exact .inr ⟨r, hr, by simp [hst], h.symm⟩
      | intake | grace | held | staged | overdue =>
        simp only [hst] at h
        exact .inl (dropped (by simp) h)

theorem drop_openRecord {s t : State} (h : s.openRecord = some t) : DropChange s t := by
  obtain ⟨_, _, _, room, free, rfl⟩ | ⟨r, hr, hst, rfl⟩ := openRecord_cases h
  · exact .opened room free
  · exact .matched hr hst

theorem changes_afterWindow (s : State) : Changes s s.afterWindow := by
  unfold State.afterWindow
  dsimp only
  split
  · exact .same rfl
  · exact Changes.trans (.same rfl) (changes_enterJammed _)

theorem steps_completeTip {s : State} {r : Record} {p : Fin 21} (h : s.intakeRecord = some r) :
    Steps s (s.completeTip r p) := by
  obtain ⟨hr, hst⟩ := mem_of_intakeRecord h
  have unheld : Changes s (s.setHold none) := .same rfl
  refine Relation.ReflTransGen.trans unheld.steps (Steps.of_drop (.placed (p := p) hr hst ⟨rfl, rfl, rfl, rfl⟩) (.same ?_))
  have pockets : ∀ (c : Carousel) (q : Fin 21) (x : Option RangeRef), (c.rememberIntake q x).pockets = c.pockets := by
    intro c q x; unfold Carousel.rememberIntake; split <;> rfl
  simp [State.completeTip, State.freeStation, State.clearReadings, ledger, pockets]

/-! ## Restart -/

theorem install_capacity (s : State) (x : SettingValues) (p : Fin 21) :
    ({ (s.install x).pcc.pockets[p] with capacity := 0 } : Pocket) = { s.pcc.pockets[p] with capacity := 0 } := by
  simp [State.install]

/-- Loading the settings leaves the ledger as it is. -/
theorem ledger_loadImage (s : State) (answers : Bool) : ledger (s.loadImage answers) = ledger s :=
  ledger_eq_iff.mpr ⟨rfl, rfl, rfl, rfl, fun p => install_capacity _ _ p, rfl⟩

/-- The module after the first step of start-up: nothing but what is kept, with the settings loaded (R178, R183). -/
def restartLoaded (s : State) (straps : Straps) (levels : Levels) (n : Nat) (answers : Bool) : State :=
  (s.cold straps levels n).loadImage answers

/-- The module after the third step of start-up: the register is kept or lost, and the handover timers run (R26, R27). -/
def restartRestored (s : State) (straps : Straps) (levels : Levels) (n : Nat) (answers lost : Bool) : State :=
  ((restartLoaded s straps levels n answers).restore lost).restartHandovers

theorem execRestart_eq (s : State) (straps : Straps) (levels : Levels) (lost answers : Bool) (n : Nat) :
    execRestart straps levels lost answers n s =
      .next ((restartRestored s straps levels n answers (lost || !s.cr.storeValid)).refill.startUpFlags.startIntake.secondPart) :=
  rfl

/-- What a restart keeps of the ledger before it looks at the register: all but the handover timers. -/
theorem ledger_restartLoaded (s : State) (straps : Straps) (levels : Levels) (n : Nat) (answers : Bool) :
    ledger (restartLoaded s straps levels n answers) = { ledger s with timers := [] } := by
  rw [restartLoaded, ledger_loadImage]
  rfl

/-- The records after a restart with the store valid (R26). -/
def restartedRecords (s : State) (straps : Straps) (levels : Levels) (n : Nat) (answers : Bool) : List Record :=
  s.cr.records.map fun r => r.restarted (restartLoaded s straps levels n answers).cr.graceInterval

theorem ledger_restartRestored (s : State) (straps : Straps) (levels : Levels) (n : Nat) (answers : Bool) :
    ledger (restartRestored s straps levels n answers false) =
      { ledger s with
        records := restartedRecords s straps levels n answers
        timers := ((restartedRecords s straps levels n answers).filter fun r => r.state == .staged).map fun r =>
          (r.receipt, (restartLoaded s straps levels n answers).rc.handoverInterval) } := by
  have hu := ledger_restartLoaded s straps levels n answers
  simp only [ledger, Ledger.mk.injEq] at hu ⊢
  obtain ⟨-, hidx, hc, hlists, hpockets, -⟩ := hu
  exact ⟨rfl, hidx, hc, hlists, hpockets, rfl⟩

/-- A job queued again for a PENDING record leaves the register as it is (R61). -/
theorem queueJob_cr_of_pending {s : State} (hs : receiptsOrdered s) {r : Record} (hr : r ∈ s.cr.records)
    (h : r.verdict = some .pending) : (s.queueJob r.receipt r.tag).cr = s.cr := by
  have same : updateReceipt s.cr.records r.receipt (fun x => { x with verdict := some .pending }) = s.cr.records := by
    refine (List.map_congr_left fun x hx => ?_).trans (List.map_id _)
    split
    next e =>
      obtain rfl := (rising_of_receiptsOrdered hs).eq_of_receipt hx hr e
      rw [← h, id]
    next => rfl
  simp [State.queueJob, State.update, State.setRecords, same]

/-- The jobs of PENDING records leave the register as it is. -/
theorem foldl_queueJob_cr {s : State} (hs : receiptsOrdered s) (l : List Record)
    (hl : ∀ r ∈ l, r ∈ s.cr.records ∧ r.verdict = some .pending) :
    (l.foldl (fun s r => s.queueJob r.receipt r.tag) s).cr = s.cr := by
  induction l generalizing s with
  | nil => rfl
  | cons r rest ih =>
    obtain ⟨hr, hp⟩ := hl r (by simp)
    have hcr := queueJob_cr_of_pending hs hr hp
    rw [List.foldl_cons, ih, hcr]
    · unfold receiptsOrdered slotsBounded; rwa [hcr]
    · rw [hcr]; exact fun x hx => hl x (List.mem_cons_of_mem r hx)

/-- Jobs touch the job queue and the register only. -/
theorem foldl_queueJob_frame (l : List Record) (s : State) :
    let t := l.foldl (fun s r => s.queueJob r.receipt r.tag) s
    t.pcc = s.pcc ∧ t.rc = s.rc ∧ t.intake = s.intake ∧ t.ls = s.ls ∧ t.ss = s.ss ∧ t.pins = s.pins ∧
      t.resetHeld = s.resetHeld := by
  induction l generalizing s with
  | nil => simp
  | cons r rest ih => simpa using ih (s.queueJob r.receipt r.tag)

theorem refill_frame (s : State) : s.refill.pcc = s.pcc ∧ s.refill.rc = s.rc ∧ s.refill.intake = s.intake ∧
    s.refill.ls = s.ls ∧ s.refill.ss = s.ss ∧ s.refill.pins = s.pins ∧ s.refill.resetHeld = s.resetHeld :=
  foldl_queueJob_frame _ s

theorem refill_cr {s : State} (hs : receiptsOrdered s) : s.refill.cr = s.cr := by
  refine foldl_queueJob_cr hs _ fun r hr => ?_
  obtain ⟨hmem, hp⟩ := List.mem_filter.mp hr
  exact ⟨hmem, by simpa using hp⟩

theorem ledger_refill {s : State} (hs : receiptsOrdered s) : ledger s.refill = ledger s := by
  obtain ⟨pcc, rc, -⟩ := refill_frame s
  unfold ledger
  rw [refill_cr hs, pcc, rc]

/-- What follows the register at start-up leaves the ledger as it is. -/
theorem ledger_startUp (s : State) : ledger (s.startUpFlags.startIntake.secondPart) = ledger s := by
  unfold State.secondPart
  split <;> simp [State.startIntake, State.startUpFlags, ledger]

/-- A restart with the store valid keeps the register, with the effects of R26 (R26, R61). -/
theorem changes_restart {s t : State} (hs : receiptsOrdered s) {straps : Straps} {levels : Levels} {lost answers : Bool}
    {n : Nat} (h : execRestart straps levels lost answers n s = .next t)
    (kept : (lost || !s.cr.storeValid) = false) : Changes s t := by
  rw [execRestart_eq, kept] at h
  obtain rfl := Host.Outcome.next.inj h
  have marked : Changes s (s.setRecords (restartedRecords s straps levels n answers)) :=
    changes_map (fun r _ => kept_restarted r _) rfl
  have timed : Change (s.setRecords (restartedRecords s straps levels n answers))
      (restartRestored s straps levels n answers false) := .rehand _ (ledger_restartRestored ..)
  refine marked.trans (.of_change_same timed ?_)
  rw [ledger_startUp, ledger_refill (timed.keeps_receiptsOrdered (marked.keeps Change.keeps_receiptsOrdered hs))]

/-- A restart with the store lost starts the register empty (R27). -/
theorem storeLost_restart {s t : State} {straps : Straps} {levels : Levels} {lost answers : Bool} {n : Nat}
    (h : execRestart straps levels lost answers n s = .next t) (gone : (lost || !s.cr.storeValid) = true) :
    StoreLost t := by
  rw [execRestart_eq, gone] at h
  obtain rfl := Host.Outcome.next.inj h
  have empty : StoreLost (restartRestored s straps levels n answers true) := by
    simp [StoreLost, restartRestored, ledger, State.restartHandovers, State.restore, Register.lost]
  have ordered : receiptsOrdered (restartRestored s straps levels n answers true) :=
    (registerRight_of_empty (congrArg Ledger.records empty) (congrArg Ledger.receiptCounter empty)).1
  unfold StoreLost
  rw [ledger_startUp, ledger_refill ordered, empty]

end Sys2Proof.CustodyProofs
end

section
/-! PROOF. What every request of the catalogue does to the ledger (R168). -/

namespace Sys2Proof.CustodyProofs

open Sys2Proof.Machine Sys2Proof.Safety

/-! ## Every command -/

theorem ledger_answer (s : State) (l : Line) (name : BitVec 32) (a : Answer) : ledger (s.answer l name a) = ledger s := by
  simp [ledger]

theorem ledger_setReceiver (s : State) (l : Line) (x : Receiver) : ledger (s.setReceiver l x) = ledger s := by
  simp [ledger]

theorem ledger_restartIdle (s : State) : ledger s.restartIdle = ledger s := by simp [ledger]

/-- A pocket's capacity is no part of the ledger. -/
theorem ledger_setPocket_capacity (s : State) (p : Fin 21) (n : Nat) :
    ledger (s.setPocket p { s.pcc.pockets[p] with capacity := n }) = ledger s := by
  refine ledger_eq_iff.mpr ⟨rfl, rfl, rfl, rfl, fun q => ?_, rfl⟩
  by_cases e : p = q
  · subst e; simp
  · simp [Vector.getElem_set_ne, Fin.val_ne_of_ne e]

section Requests

variable {s t : State} {l : Line} {name : BitVec 32} {owner : State → State × Answer}

/-- A request does to the ledger what its owner does. -/
theorem takeRequest_next (h : takeRequest s l name owner = .next t) : t = s ∨ ledger t = ledger (owner s).1 := by
  rw [takeRequest_eq] at h
  obtain rfl := Host.Outcome.next.inj h
  split
  · exact .inr (ledger_answer ..)
  · exact .inl rfl

theorem changes_takeRequest (h : takeRequest s l name owner = .next t) (ho : Changes s (owner s).1) : Changes s t := by
  obtain rfl | e := takeRequest_next h
  · exact .refl _
  · exact ho.trans_same e

theorem changes_takePanel (h : takePanel s name owner = .next t) (ho : Changes s.restartIdle (owner s.restartIdle).1) :
    Changes s t :=
  changes_takeRequest h ((Changes.same (ledger_restartIdle s)).trans ho)

theorem changes_takeRequest_same (h : takeRequest s l name owner = .next t) (ho : ledger (owner s).1 = ledger s) :
    Changes s t := changes_takeRequest h (.same ho)

theorem changes_writeSetting_same (h : writeSetting s name owner = .next t) (ho : ledger (owner s).1 = ledger s) :
    Changes s t := by
  refine changes_takeRequest_same h ?_
  split
  · rfl
  · exact ho

theorem changes_takePanel_same (h : takePanel s name owner = .next t)
    (ho : ledger (owner s.restartIdle).1 = ledger s.restartIdle) : Changes s t := changes_takePanel h (.same ho)

theorem changes_takeEvent {f : State → State} (h : takeEvent s f = .next t) (hf : Changes s (f s)) : Changes s t := by
  rw [takeEvent_eq] at h
  obtain rfl := Host.Outcome.next.inj h
  split
  · exact .refl s
  · exact hf

theorem changes_takeEvent_same {f : State → State} (h : takeEvent s f = .next t) (hf : ledger (f s) = ledger s) :
    Changes s t := changes_takeEvent h (.same hf)

end Requests

/-- CNFM changes nothing of the ledger but by a retirement (R12, R155). -/
theorem confirm_ledger (s : State) (n counted : Nat) (ids : List (BitVec 24)) :
    ledger (s.confirm n counted ids).1 = ledger s ∨ Retired s n (s.confirm n counted ids).1 := by
  unfold State.confirm
  split
  · exact .inl rfl
  split
  next => exact .inl rfl
  next r e =>
    obtain ⟨hr, rfl⟩ := mem_of_record e
    split
    · exact .inl rfl
    split
    · exact .inl rfl
    split
    · exact .inl rfl
    next hst _ _ =>
      refine .inr ⟨r, hr, rfl, ?_, by simp [ledger]⟩
      rw [Classical.not_and_iff_not_or_not, not_not, not_not] at hst
      exact hst

theorem retired_congr {s t u : State} {n : Nat} (h : Retired s n t) (e : ledger u = ledger t) : Retired s n u := by
  obtain ⟨r, hr, hn, hst, ht⟩ := h
  exact ⟨r, hr, hn, hst, e.trans ht⟩

theorem credential_ledger (s : State) (id : BitVec 24) : ledger (s.credential id).1 = ledger s := by
  unfold State.credential
  (repeat' split) <;> rfl

/-- What a request of the catalogue does to the ledger. -/
theorem runRequest_ledger {i : Instr} {s t : State} (hs : receiptsOrdered s) (h : runRequest i s = .next t) :
    Changes s t ∨ (∃ id d, i = .jamc id d ∧ Steps s t) ∨ ∃ n counted ids, i = .cnfm n counted ids ∧ Retired s n.toNat t := by
  cases i
  all_goals dsimp only [runRequest] at h
  case cnfm n counted ids =>
    obtain rfl | e := takeRequest_next h
    · exact .inl (.refl _)
    · obtain same | retired := confirm_ledger s n.toNat counted.toNat ids
      · exact .inl (.same (e.trans same))
      · exact .inr (.inr ⟨n, counted, ids, rfl, retired_congr retired e⟩)
  case advs tag customer declared lines =>
    refine .inl (changes_takeRequest h ?_)
    split
    · exact .refl _
    · exact (changes_advise ..)
  case wdrw tag => exact .inl (changes_takeRequest h (changes_withdrawAdvice s tag rfl))
  case retr tag => exact .inl (changes_takeRequest h (changes_withdrawAdvice s tag rfl))
  case ncls =>
    refine .inl (changes_takeRequest h ?_)
    split
    · exact .refl _
    · exact (changes_map (fun r _ => kept_atClose r) (by simp [ledger, ok]))
  case wipe =>
    refine .inl (changes_takeRequest h ?_)
    split
    · exact .refl _
    next none =>
      refine (Changes.of_change_same (.wipe fun r hr => ?_) (by simp [ledger, ok]))
      simp only [List.any_eq_true, not_exists, not_and, Bool.not_eq_true] at none
      exact none r hr
  case jamc id d =>
    refine .inr (.inl ⟨id, d, rfl, ?_⟩)
    obtain rfl | e := takeRequest_next h
    · exact .refl
    · refine Relation.ReflTransGen.trans ?_ (Changes.same e).steps
      split
      · exact .refl
      split
      · exact .refl
      split
      · exact .refl
      split
      · exact .refl
      next e =>
        split
        · exact .refl
        · exact Relation.ReflTransGen.trans (steps_settleJam hs e _) (Changes.same (ledger_leaveJammed _)).steps
  case notg n =>
    refine .inl (changes_takePanel h ?_)
    split
    · exact .refl _
    split
    · exact .refl _
    split
    · exact .refl _
    split
    · exact .refl _
    next e => exact changes_stage e (ledger_afterStaging _ _)
  case prtv _ => exact .inl (changes_takePanel_same h (by (repeat' split) <;> simp [ledger, ok, refuse]))
  case cred _ => exact .inl (changes_takePanel_same h (credential_ledger ..))
  case pcls => exact .inl (changes_takePanel_same h (by (repeat' split) <;> simp [ledger, ok, refuse]))
  case wndw _ => exact .inl (changes_takeRequest_same h (by split; exacts [rfl, ledger_afterPermit ..]))
  case nopn | read | ftag | lcus | lsta | lpkt | pkts | ntot | stat | clrs | home | ackl | timwRead | time =>
    exact .inl (changes_takeRequest_same h (by (repeat' split) <;> simp [ledger, ok, refuse]))
  case pcap _ _ => exact .inl (changes_writeSetting_same h (by split; exacts [rfl, ledger_setPocket_capacity ..]))
  case rngw | rnga | genr | denw | tolw | rost | polw | timw | save =>
    exact .inl (changes_writeSetting_same h (by (repeat' split) <;> simp [ledger, ok, refuse, State.chooseRouting]))
  -- no other command is a request: it has no effect here
  all_goals exact .inl (Host.Outcome.next.inj h ▸ .refl _)

end Sys2Proof.CustodyProofs
end

section
/-! PROOF. What every command does to the ledger, and from it: the register and custody stay right at every step, and custody
ends only at a confirmation (R12, R27, R155, R162). -/

namespace Sys2Proof.CustodyProofs

open Sys2Proof.Machine Sys2Proof.Safety

/-! ## Frames -/

/-- A request of the panel line is none of the branch link's, so no frame there carries a CNFM (R168). -/
theorem ofCode_line {l : Line} {name : BitVec 32} {r : ReqName} (h : ReqName.ofCode l name = some r) : r.line = l := by
  have := List.find?_some h
  simp only [Bool.and_eq_true, beq_iff_eq] at this
  exact this.2

theorem parse_eq_cnfm {r : ReqName} {body : List Byte} {n : BitVec 16} {counted : BitVec 40} {ids : List (BitVec 24)}
    (h : r.parse body = some (.cnfm n counted ids)) : r = .cnfm := by
  cases r
  case cnfm => rfl
  case timw =>
    simp only [ReqName.parse, Sys2Proof.sized] at h
    split at h
    · cases Option.some.inj h
    · split at h
      · cases Option.some.inj h
      · cases h
  all_goals simp [ReqName.parse, Sys2Proof.sized, Sys2Proof.counted] at h

theorem line_of_decode_cnfm {l : Line} {name : BitVec 32} {body : List Byte} {n : BitVec 16} {counted : BitVec 40}
    {ids : List (BitVec 24)} (h : decodeRequest l name body = .request (.cnfm n counted ids)) : l = .branch := by
  unfold decodeRequest at h
  split at h
  next => cases h
  next r hr =>
    split at h
    next => cases h
    next i hi =>
      obtain rfl := Parsed.request.inj h
      rw [← ofCode_line hr, parse_eq_cnfm hi]
      rfl

/-- A whole frame carries a CNFM on the branch link (R155, R162). -/
def CarriesConfirm (s : State) (f : Frame) (n : BitVec 16) (counted : BitVec 40) (ids : List (BitVec 24)) : Prop :=
  decodeRequest .branch f.name f.body = .request (.cnfm n counted ids) ∧ s.address .branch = some f.address ∧
    f.crc = crc16 (frameBytes f.address f.name f.body)

/-- What a completed frame does to the ledger (R162). -/
theorem checkFrame_ledger {l : Line} {f : Frame} {s t : State} (hs : receiptsOrdered s)
    (h : checkFrame l f s = .next t) :
    Steps s t ∨ ∃ n counted ids, l = .branch ∧ CarriesConfirm s f n counted ids ∧ Retired s n.toNat t := by
  unfold checkFrame at h
  split at h
  next => exact .inl (Host.Outcome.next.inj h ▸ .refl)
  next address =>
    split at h
    next => exact .inl (Host.Outcome.next.inj h ▸ .refl)
    next crc =>
      split at h
      next => exact .inl (Host.Outcome.next.inj h ▸ (Changes.same (ledger_answer ..)).steps)
      next => exact .inl (Host.Outcome.next.inj h ▸ (Changes.same (ledger_answer ..)).steps)
      next i e =>
        obtain changes | ⟨-, -, -, steps⟩ | ⟨n, counted, ids, rfl, retired⟩ := runRequest_ledger hs h
        · exact .inl changes.steps
        · exact .inl steps
        · obtain rfl := line_of_decode_cnfm e
          exact .inr ⟨n, counted, ids, rfl, ⟨e, not_not.mp address, not_not.mp crc⟩, retired⟩

/-- A command gives a CNFM: as it stands, as a completed frame, or with the last byte of a frame (R155, R160, R162). -/
def GivesConfirm (c : Instr) (s : State) (n : BitVec 16) (counted : BitVec 40) (ids : List (BitVec 24)) : Prop :=
  c = .cnfm n counted ids ∨ ∃ f, CarriesConfirm s f n counted ids ∧
    (c = .frameRejected .branch f ∨ ∃ taken b, c = .lineByteReceived .branch b ∧
      s.ls.branch.receiver = .frame taken ∧ frameOf (taken ++ [b]) = f)

theorem retired_of_setReceiver {s t : State} {l : Line} {x : Receiver} {n : Nat} (h : Retired (s.setReceiver l x) n t) :
    Retired s n t := by
  obtain ⟨r, hr, hn, hst, ht⟩ := h
  rw [State.setReceiver_cr] at hr
  exact ⟨r, hr, hn, hst, ht.trans (by simp [ledger, State.remove, State.stopHandover])⟩

theorem receiptsOrdered_setReceiver {s : State} (hs : receiptsOrdered s) (l : Line) (x : Receiver) :
    receiptsOrdered (s.setReceiver l x) := receiptsOrdered_congr (ledger_setReceiver s l x) hs

theorem steps_setReceiver (s : State) (l : Line) (x : Receiver) : Steps s (s.setReceiver l x) :=
  (Changes.same (ledger_setReceiver s l x)).steps

/-- A frame completed on a line does what the check of the frame does, from HUNT. -/
theorem checkFrame_setReceiver_ledger {l : Line} {f : Frame} {s t : State} (hs : receiptsOrdered s)
    (h : checkFrame l f (s.setReceiver l .hunt) = .next t) :
    Steps s t ∨ ∃ n counted ids, l = .branch ∧ CarriesConfirm s f n counted ids ∧ Retired s n.toNat t := by
  refine (checkFrame_ledger (receiptsOrdered_setReceiver hs l .hunt) h).imp ?_ ?_
  · exact Relation.ReflTransGen.trans (steps_setReceiver s l .hunt)
  · rintro ⟨n, counted, ids, rfl, carries, retired⟩
    exact ⟨n, counted, ids, rfl, carries, retired_of_setReceiver retired⟩

theorem whenRunning_next {s t : State} {k : State → Result} (h : whenRunning s k = .next t) : t = s ∨ k s = .next t := by
  unfold whenRunning at h
  split at h
  · exact .inl (Host.Outcome.next.inj h).symm
  · exact .inr h

theorem execFrameRejected_ledger {l : Line} {f : Frame} {s t : State} (hs : receiptsOrdered s)
    (h : execFrameRejected l f s = .next t) :
    Steps s t ∨ ∃ n counted ids, GivesConfirm (.frameRejected l f) s n counted ids ∧ Retired s n.toNat t := by
  obtain rfl | h := whenRunning_next h
  · exact .inl .refl
  split at h
  · exact .inl (Host.Outcome.next.inj h ▸ .refl)
  · refine (checkFrame_setReceiver_ledger hs h).imp_right ?_
    rintro ⟨n, counted, ids, rfl, carries, retired⟩
    exact ⟨n, counted, ids, .inr ⟨f, carries, .inl rfl⟩, retired⟩

theorem frameByte_ledger {l : Line} {taken : List Byte} {b : Byte} {s t : State} (hs : receiptsOrdered s)
    (e : (s.line l).receiver = .frame taken) (h : frameByte l (taken ++ [b]) s = .next t) :
    Steps s t ∨ ∃ n counted ids, GivesConfirm (.lineByteReceived l b) s n counted ids ∧ Retired s n.toNat t := by
  unfold frameByte at h
  split at h
  · exact .inl (Host.Outcome.next.inj h ▸ steps_setReceiver ..)
  split at h
  · refine (checkFrame_setReceiver_ledger hs h).imp_right ?_
    rintro ⟨n, counted, ids, rfl, carries, retired⟩
    exact ⟨n, counted, ids, .inr ⟨_, carries, .inr ⟨taken, b, rfl, e, rfl⟩⟩, retired⟩
  · exact .inl (Host.Outcome.next.inj h ▸ steps_setReceiver ..)

theorem execLineByteReceived_ledger {l : Line} {b : Byte} {s t : State} (hs : receiptsOrdered s)
    (h : execLineByteReceived l b s = .next t) :
    Steps s t ∨ ∃ n counted ids, GivesConfirm (.lineByteReceived l b) s n counted ids ∧ Retired s n.toNat t := by
  obtain rfl | h := whenRunning_next h
  · exact .inl .refl
  split at h
  · exact .inl (Host.Outcome.next.inj h ▸ .refl)
  split at h
  · obtain rfl := Host.Outcome.next.inj h
    split
    · exact .inl (steps_setReceiver ..)
    · exact .inl .refl
  next e => exact frameByte_ledger hs e h

/-! ## The dispatch -/

/-- A command that a frame can carry does what the request does (R162). -/
theorem exec_eq_runRequest {c : Instr} (h : c.encode.isSome = true) (s : State) : exec c s = runRequest c s := by
  cases c <;> simp [Instr.encode] at h <;> rfl

theorem steps_tagWindowExpiry {s t : State} (h : execTagWindowExpiry s = .next t) : Steps s t := by
  obtain rfl | h := whenRunning_next h
  · exact .refl
  split at h
  · split at h
    · cases h
    next e => exact Host.Outcome.next.inj h ▸ .of_drop (drop_openRecord e) (changes_afterWindow _)
  · exact Host.Outcome.next.inj h ▸ .refl

theorem changes_moveStep (s : State) (m : Move) (dir : Dir) : Changes s (s.moveStep m dir) := by
  unfold State.moveStep
  split
  · split
    · exact .refl s
    · split
      · exact .same (by simp [ledger])
      · exact .same rfl
  · exact changes_carouselFault s

theorem changes_searchStep (s : State) (x : Search) (dir : Dir) : Changes s (s.searchStep x dir) := by
  unfold State.searchStep
  split
  · exact changes_carouselFault s
  · split
    · exact changes_carouselFault s
    · exact .same rfl

theorem changes_encoderStep {s t : State} {dir : Dir} (h : execEncoderStep dir s = .next t) : Changes s t := by
  refine changes_takeEvent h (Changes.trans (t := s.setPins { s.pins with refMark := false }) (.same rfl) ?_)
  dsimp only
  split
  · exact changes_carouselFault _
  · exact changes_carouselFault _
  · exact changes_moveStep ..
  · exact changes_searchStep ..
  · split
    · exact changes_carouselFault _
    · exact .refl _
  · exact .refl _

theorem changes_hatchOpens (s : State) : Changes s s.hatchOpens := by
  have pins : Changes s (s.setPins { s.pins with hatchShut := false }) := .same rfl
  unfold State.hatchOpens
  dsimp only
  split
  · exact .same rfl
  · exact pins
  · split
    · exact pins.trans (changes_carouselFault _)
    · exact pins.trans (changes_carouselFault _)
    · exact pins.trans (changes_carouselFault _)
    · exact pins
    · exact pins
    · exact pins

theorem ledger_hatchShuts (s : State) : ledger s.hatchShuts = ledger s := by
  unfold State.hatchShuts
  dsimp only
  split <;> simp [ledger]

/-- An event that has no part in opening, placing or keeping the drop's record, and that is no restart and no frame. -/
def plainEvent : Instr → Bool
  | .restart .. | .frameRejected .. | .lineByteReceived .. | .tagWindowExpiry | .tipCompletion => false
  | c => !c.encode.isSome

/-- A plain event does to the ledger what its effect does. -/
theorem changes_event {c : Instr} {s t : State} (plain : plainEvent c = true) (h : exec c s = .next t) : Changes s t := by
  cases c
  case resetHold =>
    obtain rfl := Host.Outcome.next.inj h
    exact .same (t := { s with
      resetHeld := true, ls := { s.ls with branch := {}, panel := {}, attention := false } }) rfl
  case encoderStep => exact changes_encoderStep h
  all_goals dsimp only [exec] at h
  case graceExpiry n => exact changes_takeEvent h (changes_expireGrace s n)
  case handoverExpiry n => exact changes_takeEvent h (changes_expireHandover s n)
  case hatchScan atMs =>
    refine changes_takeEvent h ?_
    split
    · exact .refl s
    next x _ =>
      exact Changes.trans (t := s.setRc { s.rc with reader := { s.rc.reader with holding := .none } }) (.same rfl)
        (changes_hatchRead _ x atMs)
  case scaleReading value steady =>
    refine changes_takeEvent h ?_
    split
    · split
      · exact changes_takeValue ..
      · exact .same rfl
    · exact .refl s
  case weighTimerExpiry =>
    refine changes_takeEvent h ?_
    split
    · exact changes_takeValue ..
    · exact .refl s
  case routeDecision => exact changes_takeEvent h (changes_takeRoute s)
  case jobStart => exact changes_takeEvent h (changes_workOn s)
  case jobCompletion =>
    refine changes_takeEvent h ?_
    split
    · exact (changes_finishHead s).trans (changes_workOn _)
    · exact .refl s
  case tipTimerExpiry =>
    refine changes_takeEvent h ?_
    split
    · exact changes_enterJammed s
    · exact .refl s
  case arrivalTimerExpiry | homingTimerExpiry =>
    refine changes_takeEvent h ?_
    split
    · exact changes_carouselFault s
    all_goals exact .refl s
  case hatchShutSensor shut =>
    refine changes_takeEvent h ?_
    split
    · exact .same (ledger_hatchShuts s)
    · exact changes_hatchOpens s
  case timeLockContact => exact changes_takeEvent_same h (ledger_afterPermit ..)
  case tagReadComplete reader read =>
    exact changes_takeEvent_same h (by cases reader <;> simp [ledger, State.setReader])
  case drawerOpened | drawerShut | referenceMark =>
    exact changes_takeEvent_same h (by dsimp only; (repeat' split) <;> simp [ledger])
  case saveCompletion | frameGap | replyEnd | drawerTimerExpiry | drawerReadTaken | carouselServe | settleExpiry |
      unopenedTimerExpiry | lampExpiry | pairingExpiry | idleExpiry | clockTick =>
    exact changes_takeEvent_same h (by (repeat' split) <;> simp [ledger])
  -- the other commands are requests, or not plain
  all_goals simp [plainEvent, Instr.encode] at plain

/-- The completion of the tip places the drop's record (R7, R108). -/
theorem steps_tipCompletion {s t : State} (h : exec .tipCompletion s = .next t) : Steps s t := by
  dsimp only [exec, execTipCompletion] at h
  rw [takeEvent_eq] at h
  obtain rfl := Host.Outcome.next.inj h
  split
  · exact .refl
  split
  next e _ => exact steps_completeTip e
  next => exact .refl

/-- An event does to the ledger what its effect does. -/
theorem event_ledger {c : Instr} {s t : State} (hs : receiptsOrdered s) (notRequest : c.encode.isSome = false)
    (notRestart : ∀ straps levels lost answers n, c ≠ .restart straps levels lost answers n) (h : exec c s = .next t) :
    Steps s t ∨ ∃ n counted ids, GivesConfirm c s n counted ids ∧ Retired s n.toNat t := by
  cases c
  case restart => exact absurd rfl (notRestart _ _ _ _ _)
  case frameRejected => exact execFrameRejected_ledger hs h
  case lineByteReceived => exact execLineByteReceived_ledger hs h
  case tagWindowExpiry => exact .inl (steps_tagWindowExpiry h)
  case tipCompletion => exact .inl (steps_tipCompletion h)
  all_goals exact .inl (changes_event (by simp [plainEvent, notRequest]) h).steps

/-- What a command does to the ledger: a chain of changes, the retirement of a record by the CNFM that it gives, or the loss
of the store at a restart. -/
theorem exec_ledger {c : Instr} {s t : State} (hs : receiptsOrdered s) (h : exec c s = .next t) :
    Steps s t ∨ (∃ n counted ids, GivesConfirm c s n counted ids ∧ Retired s n.toNat t) ∨
      (∃ straps pins lost answers n, c = .restart straps pins lost answers n ∧ (lost = true ∨ s.cr.storeValid = false) ∧
        StoreLost t) := by
  cases request : c.encode.isSome with
  | true =>
    rw [exec_eq_runRequest request] at h
    obtain changes | ⟨-, -, -, steps⟩ | ⟨n, counted, ids, e, retired⟩ := runRequest_ledger hs h
    · exact .inl changes.steps
    · exact .inl steps
    · exact .inr (.inl ⟨n, counted, ids, .inl e, retired⟩)
  | false =>
    by_cases restart : ∃ straps levels lost answers n, c = .restart straps levels lost answers n
    · obtain ⟨straps, levels, lost, answers, n, rfl⟩ := restart
      cases gone : lost || !s.cr.storeValid with
      | false => exact .inl (changes_restart hs h gone).steps
      | true => exact .inr (.inr ⟨_, _, _, _, _, rfl, by simpa using gone, storeLost_restart h gone⟩)
    · refine (event_ledger hs request (fun _ _ _ _ _ e => restart ⟨_, _, _, _, _, e⟩) h).imp_right .inl

/-! ## The register and custody at every step -/

theorem registerRight_of_storeLost {t : State} (h : StoreLost t) : registerRight t :=
  registerRight_of_empty (congrArg Ledger.records h) (congrArg Ledger.receiptCounter h)

theorem custodyRight_of_storeLost {t : State} (h : StoreLost t) : custodyRight t := by
  have lists : t.cr.lists = Vector.replicate 21 [] := congrArg Ledger.lists h
  refine custodyRight_of_empty (congrArg Ledger.records h) (congrArg Ledger.tagIndex h) (fun p => by simp [lists])
    (fun p m => ?_) (congrArg Ledger.timers h)
  have holdings : ({ t.pcc.pockets[p] with capacity := 0 } : Pocket) = { capacity := 0 } :=
    congrFun (congrArg Ledger.holdings h) p
  obtain ⟨-, used, bags, declared, mass⟩ := Pocket.mk.inj holdings
  cases m <;> assumption

theorem registerRight_of_retired {s t : State} {n : Nat} (h : Retired s n t) (hs : registerRight s) : registerRight t := by
  obtain ⟨r, hr, rfl, hst, ht⟩ := h
  exact registerRight_congr ht (registerRight_remove _ hs)

theorem custodyRight_of_retired {s t : State} {n : Nat} (h : Retired s n t) (hreg : registerRight s) (hs : custodyRight s) :
    custodyRight t := by
  obtain ⟨r, hr, rfl, hst, ht⟩ := h
  exact custodyRight_congr ht (custodyRight_remove hr (location_of_outside (hreg.2 r hr).1 (.inr hst)) hreg hs)

theorem exec_keeps_registerRight {c : Instr} {s t : State} (h : exec c s = .next t) (hs : registerRight s) :
    registerRight t := by
  obtain steps | ⟨_, _, _, -, retired⟩ | ⟨_, _, _, _, _, -, -, lost⟩ := exec_ledger hs.1 h
  · exact steps.keeps Change.keeps_registerRight DropChange.keeps_registerRight hs
  · exact registerRight_of_retired retired hs
  · exact registerRight_of_storeLost lost

theorem exec_keeps_custodyRight {c : Instr} {s t : State} (h : exec c s = .next t) (hreg : registerRight s)
    (hs : custodyRight s) : custodyRight t := by
  obtain steps | ⟨_, _, _, -, retired⟩ | ⟨_, _, _, _, _, -, -, lost⟩ := exec_ledger hreg.1 h
  · exact (steps.keeps (P := fun s => registerRight s ∧ custodyRight s)
      (fun h ⟨hreg, hs⟩ => ⟨h.keeps_registerRight hreg, h.keeps_custodyRight hreg hs⟩)
      (fun h ⟨hreg, hs⟩ => ⟨h.keeps_registerRight hreg, h.keeps_custodyRight hreg hs⟩) ⟨hreg, hs⟩).2
  · exact custodyRight_of_retired retired hreg hs
  · exact custodyRight_of_storeLost lost

/-- A step is the command at the front of the queue, or nothing (log 1). -/
theorem step_cases {s t : State} (h : step s = .next t) : t = s ∨ ∃ c rest, exec c (s.withPending rest) = .next t := by
  unfold step at h
  split at h
  next => exact .inl (Host.Outcome.next.inj h).symm
  next c rest _ => exact .inr ⟨c, rest, h⟩

/-- Settles O53: every command does to the ledger what `exec_ledger` says, and each of these keeps the register right. -/
theorem stepKeepsTheRegister : Obligations.StepKeepsTheRegister := by
  intro s t hs h
  obtain rfl | ⟨c, rest, h⟩ := step_cases h
  · exact hs
  · exact exec_keeps_registerRight h (registerRight_congr (s := s) rfl hs)

/-- Settles O55: each change of the ledger moves the index, the lists, the totals and the timers with the records. -/
theorem stepKeepsCustody : Obligations.StepKeepsCustody := by
  intro s t hreg hs h
  obtain rfl | ⟨c, rest, h⟩ := step_cases h
  · exact hs
  · exact exec_keeps_custodyRight h (registerRight_congr (s := s) rfl hreg) (custodyRight_congr (s := s) rfl hs)

/-! ## The end of custody -/

/-- A record in custody is still there under its receipt, and in custody. -/
def KeepsCustody (s t : State) : Prop :=
  ∀ r ∈ s.cr.records, r.state.inCustody = true → ∃ x ∈ t.cr.records, x.receipt = r.receipt ∧ x.state.inCustody = true

theorem KeepsCustody.of_records {s t : State} (h : t.cr.records = s.cr.records) : KeepsCustody s t :=
  fun r hr hc => ⟨r, h ▸ hr, rfl, hc⟩

/-- One record changes, in custody after if it was before. -/
theorem KeepsCustody.of_updateReceipt {s t : State} {n : Nat} {f : Record → Record}
    (h : t.cr.records = updateReceipt s.cr.records n f) (hf : ∀ x, (f x).receipt = x.receipt)
    (hc : ∀ x, x.state.inCustody = true → (f x).state.inCustody = true) : KeepsCustody s t := by
  intro r hr hcustody
  refine ⟨if r.receipt = n then f r else r, h ▸ mem_updateReceipt.mpr ⟨r, hr, rfl⟩, ?_, ?_⟩
  · split; exacts [hf r, rfl]
  · split; exacts [hc r hcustody, hcustody]

theorem KeepsCustody.create (s : State) (make : Nat → Record) : KeepsCustody s (s.create make) :=
  fun r hr hc => ⟨r, mem_insertRecord.mpr (.inr hr), rfl, hc⟩

theorem Change.keepsCustody {s t : State} (h : Change s t) (hs : receiptsOrdered s) : KeepsCustody s t := by
  cases h with
  | same h => exact .of_records (congrArg Ledger.records h)
  | edit f h =>
    exact fun r hr hc => ⟨f r, List.mem_map_of_mem hr, (h hs r hr).receipt, (h hs r hr).custody.trans hc⟩
  | advise room free => exact .create _ _
  | withdraw hr h =>
    intro x hx hc
    refine ⟨x, List.mem_filter.mpr ⟨hx, bne_iff_ne.mpr fun e => ?_⟩, rfl, hc⟩
    obtain rfl := (rising_of_receiptsOrdered hs).eq_of_receipt hx hr e
    simp [h] at hc
  | wipe h => exact fun r hr hc => by simp [h r hr] at hc
  | attach hr h hm => exact .of_updateReceipt (attach_records ..) (fun _ => rfl) fun _ _ => rfl
  | stage hr hq h => exact .of_updateReceipt (stage_records ..) (fun _ => rfl) fun _ _ => rfl
  | giveBack hr h => exact .of_updateReceipt (giveBack_records ..) (fun _ => rfl) fun _ _ => rfl
  | overdue hr h => exact .of_updateReceipt rfl (fun _ => rfl) fun _ _ => rfl
  | rehand i h => exact .of_records (congrArg Ledger.records h)

theorem inCustody_placed (r : Record) (p : Fin 21) (g : Nat) (c : Option Nat) :
    (r.placed p g c).state.inCustody = true := by
  unfold Record.placed
  cases r.toGrace g <;> rfl

theorem DropChange.keepsCustody {s t : State} (h : DropChange s t) : KeepsCustody s t := by
  cases h with
  | opened room free => exact .create _ _
  | matched hr h => exact .of_updateReceipt rfl (fun _ => rfl) fun _ _ => rfl
  | placed hx h hr => exact .of_updateReceipt (place_records ..) (fun _ => rfl) fun x _ => inCustody_placed x ..
  | takenOut hr h => exact .of_updateReceipt rfl (fun _ => rfl) fun _ _ => rfl

theorem KeepsCustody.trans {s t u : State} (h : KeepsCustody s t) (h' : KeepsCustody t u) : KeepsCustody s u := by
  intro r hr hc
  obtain ⟨x, hx, e, hcx⟩ := h r hr hc
  obtain ⟨y, hy, e', hcy⟩ := h' x hx hcx
  exact ⟨y, hy, e'.trans e, hcy⟩

/-- A chain of changes keeps every record in custody. -/
theorem Steps.keepsCustody {s t : State} (h : Steps s t) (hs : receiptsOrdered s) : KeepsCustody s t := by
  refine (h.keeps (P := fun t => receiptsOrdered t ∧ KeepsCustody s t) ?_ ?_ ⟨hs, .of_records rfl⟩).2
  · exact fun h ⟨hs, kept⟩ => ⟨h.keeps_receiptsOrdered hs, kept.trans (h.keepsCustody hs)⟩
  · exact fun h ⟨hs, kept⟩ => ⟨h.keeps_receiptsOrdered hs, kept.trans h.keepsCustody⟩

/-- Settles O58: only a retirement and the loss of the store take a record in custody out of the register. -/
theorem custodyEndsAtConfirmation : Obligations.CustodyEndsAtConfirmation := by
  intro c s t r hs h hr hadvised hmissing gone
  obtain steps | ⟨n, counted, ids, gives, x, hx, hn, hst, ht⟩ | ⟨straps, pins, lost, answers, n, rfl, store, -⟩ :=
    exec_ledger hs h
  · obtain ⟨y, hy, e, -⟩ := steps.keepsCustody hs r hr (inCustody_iff.mpr ⟨hadvised, hmissing⟩)
    exact absurd e (gone y hy)
  · have hrn : r.receipt = n.toNat := by
      by_contra hne
      refine gone r ?_ rfl
      rw [show t.cr.records = (s.remove n.toNat).cr.records from congrArg Ledger.records ht]
      exact List.mem_filter.mpr ⟨hr, bne_iff_ne.mpr hne⟩
    obtain rfl := (rising_of_receiptsOrdered hs).eq_of_receipt hx hr (hn.trans hrn.symm)
    refine .inl ⟨n, counted, ids, hrn.symm, hst, ?_⟩
    obtain command | ⟨f, ⟨decode, address, crc⟩, frame⟩ := gives
    · exact .inl command
    · exact .inr ⟨f, decode, address, crc, frame⟩
  · exact .inr ⟨straps, pins, lost, answers, n, rfl, store⟩

end Sys2Proof.CustodyProofs
end

section
/-! PROOF. The drop and its record: the sequencer's side of what `dropRight` says, and what each operation does to it (R94 to
R117). -/

namespace Sys2Proof.CustodyProofs

open Sys2Proof.Machine Sys2Proof.Safety

/-! ## The two sides of the drop -/

/-- Every record in custody has its size class (R100). -/
def allSized (s : State) : Prop := ∀ r ∈ s.cr.records, r.state ≠ .advised → r.state ≠ .missing → Safety.sized r.size

/-- One record is in INTAKE (R4). -/
def oneIntake (s : State) : Prop := ∃ r, inIntake s r

/-- No record is in INTAKE. -/
def noIntake (s : State) : Prop := ∀ r ∈ s.cr.records, r.state ≠ .intake

/-- The register's side: sizes, and the record of the drop from WEIGH to TIP and in JAMMED. -/
def bagRight (s : State) : Prop :=
  allSized s ∧ (hasRecord s.intake.phase = true → oneIntake s) ∧ (hasRecord s.intake.phase = false → noIntake s)

/-- The sequencer's side but for the drum: the size class in IDENTIFY, the chosen pocket in POSITION and TIP, an intake
request only there, and what a restart left to take up only in CLOSED or SHUT. -/
def seqOpen (s : State) : Prop :=
  (s.intake.phase = .identify → Safety.sized s.intake.readings.size) ∧
  (s.intake.phase = .position ∨ s.intake.phase = .tip → s.intake.readings.chosen.isSome = true) ∧
  (∀ q ∈ s.pcc.queue, q.source = .intake → s.intake.phase = .position ∨ s.intake.phase = .tip) ∧
  (s.intake.takeUp = true → s.intake.phase = .closed ∨ s.intake.phase = .shut)

/-- The sequencer's side: what a restart left to take up waits for the end of homing (R117). -/
def seqRight (s : State) : Prop := seqOpen s ∧ (s.intake.takeUp = true → ∃ x, s.pcc.drum = .homing x)

theorem dropRight_iff {s : State} : dropRight s ↔ bagRight s ∧ seqRight s := by
  unfold dropRight bagRight seqRight seqOpen allSized oneIntake noIntake
  constructor
  · rintro ⟨size, sizes, one, none, chosen, request, takeUp⟩
    exact ⟨⟨sizes, one, none⟩, ⟨size, chosen, request, fun h => (takeUp h).1⟩, fun h => (takeUp h).2⟩
  · rintro ⟨⟨sizes, one, none⟩, ⟨size, chosen, request, waits⟩, homing⟩
    exact ⟨size, sizes, one, none, chosen, request, fun h => ⟨waits h, homing h⟩⟩

/-- What the sequencer's side speaks of. -/
def seqView (s : State) : Phase × Readings × Bool × List PosRequest × Drum :=
  (s.intake.phase, s.intake.readings, s.intake.takeUp, s.pcc.queue, s.pcc.drum)

/-- The sequencer's side stays right, and the drop has its record after if it had it before. -/
def SeqKept (s t : State) : Prop := seqRight s → seqRight t ∧ hasRecord t.intake.phase = hasRecord s.intake.phase

theorem SeqKept.refl (s : State) : SeqKept s s := fun h => ⟨h, rfl⟩

theorem SeqKept.trans {s t u : State} (h : SeqKept s t) (h' : SeqKept t u) : SeqKept s u := fun hs =>
  let ⟨ht, e⟩ := h hs
  let ⟨hu, e'⟩ := h' ht
  ⟨hu, e'.trans e⟩

theorem SeqKept.same {s t : State} (h : seqView t = seqView s) : SeqKept s t := by
  simp only [seqView, Prod.mk.injEq] at h
  obtain ⟨phase, readings, takeUp, queue, drum⟩ := h
  intro hs
  unfold seqRight seqOpen at *
  rw [phase, readings, takeUp, queue, drum]
  exact ⟨hs, rfl⟩

/-- No request of the intake sequencer stands in the positioning queue. -/
def noRequest (s : State) : Prop := ∀ q ∈ s.pcc.queue, q.source ≠ .intake

/-- Outside POSITION and TIP the sequencer has no request (R107). -/
theorem noRequest_of_phase {s : State} (hs : seqOpen s) (h1 : s.intake.phase ≠ .position) (h2 : s.intake.phase ≠ .tip) :
    noRequest s := fun q hq e => (hs.2.2.1 q hq e).elim h1 h2

/-- A phase in which nothing but the absence of a request is asked. -/
theorem seqOpen_of_noRequest {s : State} (hq : noRequest s) (h1 : s.intake.phase ≠ .identify)
    (h2 : s.intake.phase ≠ .position) (h3 : s.intake.phase ≠ .tip)
    (ht : s.intake.takeUp = true → s.intake.phase = .closed ∨ s.intake.phase = .shut) : seqOpen s :=
  ⟨fun h => absurd h h1, fun h => (h.elim h2 h3).elim, fun q hm e => absurd e (hq q hm), ht⟩

/-- Once the drum is not in HOMING nothing waits to be taken up (R117). -/
theorem takeUp_of_drum {s : State} (hs : seqRight s) (h : ∀ x, s.pcc.drum ≠ .homing x) : s.intake.takeUp = false := by
  cases e : s.intake.takeUp with
  | false => rfl
  | true => obtain ⟨x, hx⟩ := hs.2 e; exact absurd hx (h x)

theorem takeUp_of_phase {s : State} (hs : seqOpen s) (h1 : s.intake.phase ≠ .closed) (h2 : s.intake.phase ≠ .shut) :
    s.intake.takeUp = false := by
  cases e : s.intake.takeUp with
  | false => rfl
  | true => exact ((hs.2.2.2 e).elim h1 h2).elim

/-! ## The chute -/

theorem testChute_phase (s : State) : s.testChute.intake.phase = .closed ∨ s.testChute.intake.phase = .shut ∨
    (s.testChute.intake.phase = .ready ∧ s.chuteConditions = true) := by
  obtain ⟨-, e⟩ | ⟨-, h, e⟩ | ⟨-, -, e⟩ := testChute_cases s
  · simp [e]
  · simp [e, h]
  · simp [e]

/-- A chute that is tested while a restart has something to take up is CLOSED or SHUT, since the drum is in HOMING (R95,
R117). -/
theorem seqRight_testChute {s : State} (hq : noRequest s) (ht : s.intake.takeUp = true → ∃ x, s.pcc.drum = .homing x) :
    seqRight s.testChute ∧ hasRecord s.testChute.intake.phase = false := by
  have phase := testChute_phase s
  have requests : noRequest s.testChute := by unfold noRequest; rw [State.testChute_pcc_queue]; exact hq
  have homing : s.testChute.intake.takeUp = true → ∃ x, s.testChute.pcc.drum = .homing x := by simpa using ht
  have waits : s.testChute.intake.takeUp = true →
      s.testChute.intake.phase = .closed ∨ s.testChute.intake.phase = .shut := by
    intro h
    obtain h' | h' | ⟨-, conditions⟩ := phase
    · exact .inl h'
    · exact .inr h'
    · obtain ⟨x, hx⟩ := ht (by simpa using h)
      exact absurd hx (((chuteConditions_iff s).mp conditions).2.2.1 x)
  refine ⟨⟨seqOpen_of_noRequest requests ?_ ?_ ?_ waits, homing⟩, ?_⟩ <;>
    obtain h | h | ⟨h, -⟩ := phase <;> simp [h, hasRecord]

theorem seqKept_retest (s : State) : SeqKept s s.retest := by
  intro hs
  have test : s.intake.phase ≠ .position → s.intake.phase ≠ .tip →
      seqRight s.testChute ∧ hasRecord s.testChute.intake.phase = false := fun h1 h2 =>
    seqRight_testChute (noRequest_of_phase hs.1 h1 h2) hs.2
  unfold State.retest
  cases e : s.intake.phase with
  | closed | shut | ready => simpa [hasRecord] using test (by simp [e]) (by simp [e])
  | loading | identify | weigh | route | position | tip | jammed => exact ⟨hs, by rw [e]⟩

theorem sized_sizeClass (b : BitVec 4) : Safety.sized (some (sizeClass b)) := by
  refine ⟨sizeClass b, rfl, ?_⟩
  unfold sizeClass
  (repeat' split) <;> omega

/-- The end of a restart's first homing takes a drop up, or tests the chute (R117). -/
theorem seqRight_takeUpDrop {s : State} (hq : noRequest s) :
    seqRight s.takeUpDrop ∧ hasRecord s.takeUpDrop.intake.phase = false := by
  unfold State.takeUpDrop
  dsimp only
  split
  · refine ⟨⟨seqOpen_of_noRequest ?_ ?_ ?_ ?_ ?_, ?_⟩, ?_⟩
    all_goals simp [State.enterLoading, noRequest, hasRecord]
    simpa [noRequest] using hq
  split
  · have request : ∀ q ∈ s.pcc.queue, q.source = .intake → False := fun q hm e => hq q hm e
    refine ⟨⟨⟨fun _ => ?_, ?_, ?_, ?_⟩, ?_⟩, ?_⟩
    · simpa [State.enterIdentify] using sized_sizeClass _
    all_goals simp [State.enterIdentify, hasRecord]
    exact request
  · exact seqRight_testChute hq (by simp)

/-- The drum has left HOMING or is in FAULT: a drop is taken up, or the chute is tested again (R96, R117). -/
theorem seqRight_afterDrumChange {s : State} (hs : seqOpen s) :
    seqRight s.afterDrumChange ∧ hasRecord s.afterDrumChange.intake.phase = hasRecord s.intake.phase := by
  unfold State.afterDrumChange
  cases e : s.intake.takeUp with
  | true =>
    have phase := hs.2.2.2 e
    have hq : noRequest s := by
      obtain h | h := phase <;> exact noRequest_of_phase hs (by simp [h]) (by simp [h])
    refine ⟨(seqRight_takeUpDrop hq).1, (seqRight_takeUpDrop hq).2.trans ?_⟩
    obtain h | h := phase <;> simp [h, hasRecord]
  | false => exact seqKept_retest s ⟨hs, by simp [e]⟩

/-! ## The arbiter -/

theorem source_of_mem_markServing {src : Source} {l : List PosRequest} {q : PosRequest} (h : q ∈ markServing src l) :
    ∃ x ∈ l, x.source = q.source := by
  induction l with
  | nil => simp [markServing] at h
  | cons r rest ih =>
    unfold markServing at h
    split at h
    · obtain rfl | h := List.mem_cons.mp h
      · exact ⟨r, by simp, rfl⟩
      · exact ⟨q, List.mem_cons_of_mem r h, rfl⟩
    · obtain rfl | h := List.mem_cons.mp h
      · exact ⟨q, by simp, rfl⟩
      · obtain ⟨x, hx, e⟩ := ih h
        exact ⟨x, List.mem_cons_of_mem r hx, e⟩

/-- Requests that come from the queue's own sources leave the sequencer's side right. -/
theorem seqKept_setQueue {s : State} {l : List PosRequest}
    (h : ∀ q ∈ l, q.source = .intake → (∃ x ∈ s.pcc.queue, x.source = .intake) ∨
      s.intake.phase = .position ∨ s.intake.phase = .tip) : SeqKept s (s.setQueue l) := by
  rintro ⟨⟨size, chosen, request, waits⟩, homing⟩
  refine ⟨⟨⟨size, chosen, fun q hq e => ?_, waits⟩, homing⟩, rfl⟩
  obtain ⟨x, hx, e'⟩ | phase := h q hq e
  · exact request x hx e'
  · exact phase

/-- Where nothing waits to be taken up the drum may do what it does. -/
theorem seqKept_drum {s t : State} (hphase : t.intake.phase = s.intake.phase)
    (hreadings : t.intake.readings = s.intake.readings) (htakeUp : t.intake.takeUp = s.intake.takeUp)
    (hqueue : t.pcc.queue = s.pcc.queue) (h : seqRight s → s.intake.takeUp = false) : SeqKept s t := by
  intro hs
  have off := h hs
  obtain ⟨hopen, -⟩ := hs
  unfold seqRight seqOpen at *
  rw [hphase, hreadings, htakeUp, hqueue]
  exact ⟨⟨hopen, by simp [off]⟩, rfl⟩

theorem seqKept_startMove {s : State} (t : Fin 21) (pre : Bool) (h : s.pcc.drum = .idle) : SeqKept s (s.startMove t pre) :=
  seqKept_drum (by simp) (by simp) (by simp) (by simp) fun hs => takeUp_of_drum hs (by simp [h])

theorem seqKept_arrive (s : State) : SeqKept s s.arrive := by
  unfold State.arrive
  split
  next => exact .refl s
  next r e =>
    have hr := List.mem_of_find?_eq_some e
    cases src : r.source with
    | intake =>
      intro hs
      have phase := hs.1.2.2.1 r hr src
      have kept : SeqKept s (s.setQueue
          (s.pcc.queue.map fun x => if x.stage = .serving then { x with stage := .inService } else x)) :=
        seqKept_setQueue fun _ _ _ => .inr phase
      obtain ⟨⟨⟨size, chosen, request, waits⟩, homing⟩, -⟩ := kept hs
      have off : s.intake.takeUp = false := by
        obtain h | h := phase <;> exact takeUp_of_phase hs.1 (by simp [h]) (by simp [h])
      refine ⟨⟨⟨by simp [State.enterTip], fun _ => chosen phase, fun q hq _ => .inr rfl, ?_⟩, ?_⟩, ?_⟩
      · simp [State.enterTip, off]
      · simp [State.enterTip, off]
      · obtain h | h := phase <;> simp [State.enterTip, h, hasRecord]
    | release =>
      have kept : SeqKept s (s.setQueue (s.pcc.queue.filter fun x => x.stage != .serving)) :=
        seqKept_setQueue fun q hq e => .inl ⟨q, List.mem_of_mem_filter hq, e⟩
      dsimp only
      split
      · exact kept
      · exact kept.trans (.same rfl)

theorem drum_of_canServe {s : State} (h : s.canServe = true) : s.pcc.drum = .idle := by
  simp only [State.canServe, Bool.and_eq_true, beq_iff_eq] at h
  exact h.1.1

theorem seqKept_serve (s : State) : SeqKept s s.serve := by
  unfold State.serve
  split
  next can =>
    split
    next => exact .refl s
    next src _ =>
      have marked : SeqKept s (s.setQueue (markServing src s.pcc.queue)) := seqKept_setQueue fun q hq e => by
        obtain ⟨x, hx, e'⟩ := source_of_mem_markServing hq
        exact .inl ⟨x, hx, e'.trans e⟩
      have idle : s.pcc.drum = .idle := drum_of_canServe can
      dsimp only
      split
      next => exact marked
      next =>
        split
        · exact marked.trans (seqKept_arrive _)
        · exact marked.trans (seqKept_startMove _ _ idle)
  next => exact .refl s

theorem seqKept_cutPreMove (s : State) : SeqKept s s.cutPreMove := by
  cases e : s.pcc.drum with
  | idle | homing _ | fault =>
    have : s.cutPreMove = s := by simp [State.cutPreMove, e]
    rw [this]
    exact .refl s
  | settle _ | moving _ _ =>
    exact seqKept_drum (by simp) (by simp) (by simp) (by simp) fun hs => takeUp_of_drum hs (by simp [e])

/-- A request enters the queue; the sequencer's own only in POSITION or TIP (R83, R107). -/
theorem seqKept_enqueue {s : State} {r : PosRequest}
    (h : r.source = .intake → s.intake.phase = .position ∨ s.intake.phase = .tip) : SeqKept s (s.enqueue r) := by
  refine SeqKept.trans (seqKept_setQueue fun q hq e => ?_) ((seqKept_cutPreMove _).trans (seqKept_serve _))
  obtain hq | hq := List.mem_append.mp hq
  · exact .inl ⟨q, hq, e⟩
  · obtain rfl := List.mem_singleton.mp hq
    exact .inr (h e)

theorem seqKept_arriveAt {s : State} (k : Fin 21) (h : ∀ x, s.pcc.drum ≠ .homing x) : SeqKept s (s.arriveAt k) := by
  refine SeqKept.trans (t := s.setPcc { s.pcc with position := some k, drum := .idle }) ?_
    ((seqKept_arrive _).trans (seqKept_serve _))
  exact seqKept_drum rfl rfl rfl rfl fun hs => takeUp_of_drum hs h

/-! ## Jams, faults and homing -/

/-- A jam outside CLOSED and SHUT (R110). -/
theorem seqRight_jam {s : State} (h : s.intake.takeUp = false) : seqRight s.jam ∧ s.jam.intake.phase = .jammed := by
  have phase : s.jam.intake.phase = .jammed := rfl
  have requests : noRequest s.jam := by
    intro q hq
    have : q ∈ s.pcc.queue.filter fun r => r.source != .intake := hq
    simpa using (List.mem_filter.mp this).2
  exact ⟨⟨seqOpen_of_noRequest requests (by simp [phase]) (by simp [phase]) (by simp [phase]) (by simp [h]),
    by simp [h]⟩, phase⟩

theorem seqRight_enterJammed {s : State} (h : s.intake.takeUp = false) :
    seqRight s.enterJammed ∧ hasRecord s.enterJammed.intake.phase = true := by
  obtain ⟨right, phase⟩ := seqRight_jam h
  obtain ⟨served, e⟩ := seqKept_serve s.jam right
  exact ⟨served, e.trans (by simp [phase, hasRecord])⟩

theorem seqKept_enterJammed {s : State} (h : hasRecord s.intake.phase = true) : SeqKept s s.enterJammed := by
  intro hs
  have off : s.intake.takeUp = false :=
    takeUp_of_phase hs.1 (fun e => by simp [e, hasRecord] at h) (fun e => by simp [e, hasRecord] at h)
  obtain ⟨right, e⟩ := seqRight_enterJammed off
  exact ⟨right, e.trans h.symm⟩

theorem seqKept_carouselFault (s : State) : SeqKept s s.carouselFault := by
  intro hs
  have stopped : ∀ u : State, u.intake = s.intake → u.pcc.queue = [] → seqOpen u := by
    intro u hi hq
    obtain ⟨size, chosen, -, waits⟩ := hs.1
    unfold seqOpen
    rw [hi, hq]
    exact ⟨size, chosen, by simp, waits⟩
  unfold State.carouselFault
  dsimp only
  split
  next positioned =>
    have off : s.intake.takeUp = false :=
      takeUp_of_phase hs.1 (fun e => by simp [e, Phase.positioned] at positioned)
        (fun e => by simp [e, Phase.positioned] at positioned)
    obtain ⟨right, phase⟩ := seqRight_jam (s := s.setPcc { s.pcc with
      drum := .fault, position := .none, lastDir := .none, queue := [] }) off
    have here : hasRecord s.intake.phase = true := by
      cases e : s.intake.phase <;> simp_all [Phase.positioned, hasRecord]
    obtain ⟨hopen, -⟩ := right
    refine (seqRight_afterDrumChange ?_).imp_right fun e => e.trans ?_
    · unfold seqOpen at hopen ⊢
      simpa using hopen
    · rw [here]
      simp [phase, hasRecord]
  next =>
    refine (seqRight_afterDrumChange (stopped _ (by simp) (by simp))).imp_right fun e => e.trans (by simp)

theorem seqKept_homed (s : State) : SeqKept s s.homed := by
  intro hs
  have hopen : seqOpen (s.setPcc { s.pcc with drum := .idle, position := some 0, lastDir := some .forward }) := hs.1
  obtain ⟨right, e⟩ := seqRight_afterDrumChange hopen
  obtain ⟨served, e'⟩ := seqKept_serve _ right
  exact ⟨served, e'.trans e⟩

theorem seqKept_beginSearch (s : State) : SeqKept s s.beginSearch := by
  unfold State.beginSearch
  split
  · exact seqKept_homed s
  · exact fun hs => ⟨⟨hs.1, fun _ => ⟨_, rfl⟩⟩, rfl⟩

theorem seqKept_interlockSecured (s : State) : SeqKept s s.interlockSecured := by
  unfold State.interlockSecured
  cases s.pcc.drum with
  | homing x => cases x with
    | none => exact seqKept_beginSearch s
    | some _ => exact seqKept_serve s
  | idle | settle _ | moving _ _ | fault => exact seqKept_serve s

/-! ## The session -/

theorem source_of_mem_withdraw {l : List PosRequest} {q : PosRequest} (h : q ∈ withdraw l) :
    ∃ x ∈ l, x.source = q.source := by
  obtain ⟨x, hx, rfl⟩ := List.mem_map.mp h
  refine ⟨x, List.mem_of_mem_filter hx, ?_⟩
  split <;> rfl

theorem seqKept_leaveOpen (s : State) : SeqKept s s.leaveOpen := by
  have withdrawn : SeqKept (s.setRc { s.rc with session := .closed })
      ((s.setRc { s.rc with session := .closed }).setQueue (withdraw s.pcc.queue)) := seqKept_setQueue fun q hq e => by
    obtain ⟨x, hx, e'⟩ := source_of_mem_withdraw hq
    exact .inl ⟨x, hx, e'.trans e⟩
  exact SeqKept.trans (.same rfl) (withdrawn.trans ((SeqKept.same (by simp [seqView])).trans (seqKept_serve _)))

theorem seqKept_closeSession (s : State) : SeqKept s s.closeSession := by
  unfold State.closeSession
  split
  · exact .refl s
  · exact .same rfl
  · exact seqKept_leaveOpen s

theorem seqKept_afterPermit {s t : State} (h : SeqKept s t) : SeqKept s (s.afterPermit t) := by
  unfold State.afterPermit
  split
  · exact h.trans (seqKept_closeSession t)
  · exact h

/-! ## The route -/

theorem seqKept_offerIntake {s : State} (p : Fin 21) (h : s.intake.phase = .position) : SeqKept s (s.offerIntake p) := by
  unfold State.offerIntake
  split
  · exact seqKept_enterJammed (by simp [h, hasRecord])
  · exact seqKept_enqueue fun _ => .inl h

/-- The route decision, taken in ROUTE, goes on to POSITION with the chosen pocket (R106). -/
theorem seqKept_decideRoute {s : State} (h : s.intake.phase = .route) : SeqKept s s.decideRoute := by
  unfold State.decideRoute
  split
  next => exact .refl s
  next r _ =>
    refine SeqKept.trans (fun hs => ?_) (seqKept_offerIntake _ (by simp))
    have off := takeUp_of_phase hs.1 (by simp [h]) (by simp [h])
    refine ⟨⟨⟨by simp, by simp, by simp, by simp [off]⟩, by simp [off]⟩, by simp [h, hasRecord]⟩

theorem seqKept_takeRoute (s : State) : SeqKept s s.takeRoute := by
  unfold State.takeRoute
  split
  next h => exact seqKept_decideRoute h.1
  next => exact .refl s

theorem seqKept_workOn (s : State) : SeqKept s s.workOn :=
  (SeqKept.same (t := s.startWau) (by simp [seqView])).trans (seqKept_takeRoute _)

/-- The value taken in WEIGH brings ROUTE (R105). -/
theorem seqKept_takeValue {s : State} (v : Int) (unsteady : Bool) (h : s.intake.phase = .weigh) :
    SeqKept s (s.takeValue v unsteady) := by
  refine SeqKept.trans (fun hs => ?_) (seqKept_takeRoute _)
  have off := takeUp_of_phase hs.1 (by simp [h]) (by simp [h])
  have requests := noRequest_of_phase hs.1 (by simp [h]) (by simp [h])
  refine ⟨⟨seqOpen_of_noRequest ?_ ?_ ?_ ?_ ?_, ?_⟩, ?_⟩
  · simpa [noRequest] using requests
  all_goals simp [h, off, hasRecord]

end Sys2Proof.CustodyProofs
end

section
/-! PROOF. The drop and its record: the register's side, that is the count of records in INTAKE and the size classes, and what
every change of the ledger does to it (R4, R100). -/

namespace Sys2Proof.CustodyProofs

open Sys2Proof.Machine Sys2Proof.Safety

/-! ## The count of records in INTAKE -/

/-- How many records are in INTAKE. -/
def intakeCount (s : State) : Nat := s.cr.records.countP fun r => r.state == .intake

theorem noIntake_iff {s : State} : noIntake s ↔ intakeCount s = 0 := by
  simp [noIntake, intakeCount, List.countP_eq_zero]

/-- In a register in order a single INTAKE record is the one in INTAKE (R3, R4). -/
theorem oneIntake_iff {s : State} (hs : receiptsOrdered s) : oneIntake s ↔ intakeCount s = 1 := by
  have rising := (rising_of_receiptsOrdered hs).filter fun r => r.state == .intake
  have mem : ∀ r, r ∈ s.cr.records.filter (fun r => r.state == .intake) ↔ r ∈ s.cr.records ∧ r.state = .intake := by simp
  unfold intakeCount
  rw [List.countP_eq_length_filter, List.length_eq_one_iff]
  constructor
  · rintro ⟨r, ⟨hr, -⟩, hst, only⟩
    refine ⟨r, ?_⟩
    match e : s.cr.records.filter fun r => r.state == .intake with
    | [] => simpa [e] using (mem r).mpr ⟨hr, hst⟩
    | [x] =>
      obtain ⟨hx, hxst⟩ := (mem x).mp (by simp [e])
      rw [e, only x hx hxst]
    | x :: y :: rest =>
      obtain ⟨hx, hxst⟩ := (mem x).mp (by simp [e])
      obtain ⟨hy, hyst⟩ := (mem y).mp (by simp [e])
      rw [e, only x hx hxst, only y hy hyst] at rising
      exact absurd ((List.pairwise_cons.mp rising).1 r (by simp)) (lt_irrefl _)
  · rintro ⟨r, e⟩
    obtain ⟨hr, hst⟩ := (mem r).mp (by simp [e])
    exact ⟨r, holds_of_mem hs hr, hst, fun x hx hxst => by simpa [e] using (mem x).mpr ⟨hx, hxst⟩⟩

theorem bagRight_iff {s : State} (hs : receiptsOrdered s) :
    bagRight s ↔ allSized s ∧ intakeCount s = if hasRecord s.intake.phase = true then 1 else 0 := by
  unfold bagRight
  rw [oneIntake_iff hs, noIntake_iff]
  cases hasRecord s.intake.phase <;> simp

theorem allSized_iff {s : State} : allSized s ↔ ∀ r ∈ s.cr.records, r.state.inCustody = true → Safety.sized r.size := by
  simp only [allSized, inCustody_iff, and_imp]

/-! ## Changes of the records -/

/-- The size classes stay known, and k more records are in INTAKE than l before. -/
def BagMoves (s t : State) (l k : Nat) : Prop := (allSized s → allSized t) ∧ intakeCount t + l = intakeCount s + k

/-- As many records are in INTAKE as before. -/
abbrev BagKept (s t : State) : Prop := BagMoves s t 0 0

theorem BagMoves.of_records {s t : State} (h : t.cr.records = s.cr.records) : BagKept s t := by
  simp [BagMoves, allSized, intakeCount, h]

theorem BagMoves.trans_kept {s t u : State} {l k : Nat} (h : BagMoves s t l k) (h' : BagKept t u) : BagMoves s u l k :=
  ⟨fun hs => h'.1 (h.1 hs), by have := h.2; have := h'.2; omega⟩

theorem BagKept.trans_moves {s t u : State} {l k : Nat} (h : BagKept s t) (h' : BagMoves t u l k) : BagMoves s u l k :=
  ⟨fun hs => h'.1 (h.1 hs), by have := h.2; have := h'.2; omega⟩

/-- One more or one less of a list's records in INTAKE. -/
def intakes (r : Record) : Nat := if r.state = .intake then 1 else 0

theorem countP_cons_intakes (r : Record) (l : List Record) :
    (r :: l).countP (fun r => r.state == .intake) = l.countP (fun r => r.state == .intake) + intakes r := by
  simp [List.countP_cons, intakes]

/-- One record changes: its size class stays known, and it counts in INTAKE by what it is before and after. -/
theorem bagMoves_update {s t : State} {r : Record} {f : Record → Record} (hs : receiptsOrdered s) (hr : r ∈ s.cr.records)
    (ht : t.cr.records = updateReceipt s.cr.records r.receipt f)
    (hf : (r.state.inCustody = true → Safety.sized r.size) → Safety.sized (f r).size) :
    BagMoves s t (intakes r) (intakes (f r)) := by
  obtain ⟨before, after, e, e'⟩ := (rising_of_receiptsOrdered hs).updateReceipt_split hr f
  constructor
  · rw [allSized_iff, allSized_iff, ht, e', e]
    intro h x hx hc
    obtain hx | hx := List.mem_append.mp hx
    · exact h x (by simp [hx]) hc
    obtain rfl | hx := List.mem_cons.mp hx
    · exact hf (h r (by simp))
    · exact h x (by simp [hx]) hc
  · unfold intakeCount
    rw [ht, e', e, List.countP_append, List.countP_append, countP_cons_intakes, countP_cons_intakes]
    omega

/-- A record in custody and not in INTAKE changes, and keeps its size class. -/
theorem bagKept_update {s t : State} {r : Record} {f : Record → Record} (hs : receiptsOrdered s) (hr : r ∈ s.cr.records)
    (ht : t.cr.records = updateReceipt s.cr.records r.receipt f) (size : (f r).size = r.size)
    (custody : r.state.inCustody = true) (before : r.state ≠ .intake) (after : (f r).state ≠ .intake) : BagKept s t := by
  have h := bagMoves_update hs hr ht fun h => size ▸ h custody
  rwa [intakes, intakes, if_neg before, if_neg after] at h

theorem bagMoves_create {s : State} {make : Nat → Record} (h : (make s.freshReceipt).state.inCustody = true →
    Safety.sized (make s.freshReceipt).size) : BagMoves s (s.create make) 0 (intakes (make s.freshReceipt)) := by
  constructor
  · rw [allSized_iff, allSized_iff]
    intro hs x hx hc
    obtain rfl | hx := mem_insertRecord.mp hx
    · exact h hc
    · exact hs x hx hc
  · have e := (insertRecord_perm (make s.freshReceipt) s.cr.records).countP_eq fun r => r.state == .intake
    rw [countP_cons_intakes] at e
    exact e

/-- A record that is not in INTAKE is removed. -/
theorem bagKept_remove {s t : State} {r : Record} (hs : receiptsOrdered s) (hr : r ∈ s.cr.records) (h : r.state ≠ .intake)
    (ht : t.cr.records = (s.remove r.receipt).cr.records) : BagKept s t := by
  have records : t.cr.records = s.cr.records.filter fun x => x.receipt != r.receipt := ht
  constructor
  · rw [allSized_iff, allSized_iff, records]
    exact fun hs x hx hc => hs x (List.mem_of_mem_filter hx) hc
  · unfold intakeCount
    rw [records, List.countP_filter]
    refine congrArg (· + 0) (List.countP_congr fun x hx => ?_)
    have other : x.state = .intake → x.receipt ≠ r.receipt := fun hst e =>
      h ((rising_of_receiptsOrdered hs).eq_of_receipt hx hr e ▸ hst)
    simpa using other

theorem ne_intake_of_staged {x : RecState} (h : x = .staged ∨ x = .overdue) : x ≠ .intake := by
  obtain rfl | rfl := h <;> simp

/-- A change that leaves the drop's record as it is. -/
theorem Change.bagKept {s t : State} (h : Change s t) (hs : receiptsOrdered s) : BagKept s t := by
  cases h with
  | same h => exact .of_records (congrArg Ledger.records h)
  | edit f h =>
    have kept := h hs
    constructor
    · rw [allSized_iff, allSized_iff]
      intro sizes y hy hc
      obtain ⟨x, hx, rfl⟩ := List.mem_map.mp hy
      rw [(kept x hx).size]
      exact sizes x hx ((kept x hx).custody ▸ hc)
    · refine congrArg (· + 0) ((List.countP_map ..).trans (List.countP_congr fun x hx => ?_))
      simpa using (kept x hx).intake
  | advise room free => exact bagMoves_create (by simp [advisedRecord, RecState.inCustody])
  | withdraw hr h => exact bagKept_remove hs hr (fun e => by simp [e, RecState.inCustody] at h) rfl
  | wipe h =>
    refine ⟨fun _ => by simp [allSized, State.wipe], ?_⟩
    have none : intakeCount s = 0 := noIntake_iff.mp fun r hr e => by simpa [e, RecState.inCustody] using h r hr
    rw [none]
    rfl
  | attach hr h hm =>
    refine bagKept_update hs hr (attach_records ..) rfl ?_ ?_ (by simp [attached]) <;>
      obtain h | ⟨h, -⟩ := h <;> simp [h, RecState.inCustody]
  | stage hr hq h => exact bagKept_update hs hr (stage_records ..) rfl (by simp [h, RecState.inCustody]) (by simp [h]) (by simp)
  | giveBack hr h =>
    refine bagKept_update hs hr (giveBack_records ..) rfl ?_ (ne_intake_of_staged h) (by simp)
    obtain h | h := h <;> simp [h, RecState.inCustody]
  | overdue hr h => exact bagKept_update hs hr rfl rfl (by simp [h, RecState.inCustody]) (by simp [h]) (by simp)
  | rehand i h => exact .of_records (congrArg Ledger.records h)

theorem Changes.bagKept {s t : State} (h : Changes s t) (hs : receiptsOrdered s) : BagKept s t :=
  (h.keeps (P := fun t => receiptsOrdered t ∧ BagKept s t)
    (fun h ⟨hs, kept⟩ => ⟨h.keeps_receiptsOrdered hs, kept.trans_kept (h.bagKept hs)⟩) ⟨hs, .of_records rfl⟩).2

theorem Retired.bagKept {s t : State} {n : Nat} (h : Retired s n t) (hs : receiptsOrdered s) : BagKept s t := by
  obtain ⟨r, hr, rfl, hst, ht⟩ := h
  exact bagKept_remove hs hr (ne_intake_of_staged hst) (congrArg Ledger.records ht)

/-! ## Changes of the drop's record -/

/-- The record of the drop leaves INTAKE with a placement (R7). -/
theorem bagMoves_place {s : State} {x r : Record} {p : Fin 21} (hs : receiptsOrdered s) (hx : x ∈ s.cr.records)
    (h : x.state = .intake) (hr : Alike x r) : BagMoves s (s.place r p) 1 0 := by
  have records := place_records s r p
  rw [hr.receipt] at records
  have moves := bagMoves_update hs hx records fun sized => sized (by simp [h, RecState.inCustody])
  have after : (x.placed p s.cr.graceInterval s.ls.clock).state ≠ .intake := by
    unfold Record.placed
    cases x.toGrace s.cr.graceInterval <;> simp
  rwa [intakes, intakes, if_pos h, if_neg after] at moves

/-- After JAMC no record is in INTAKE (R112, R113). -/
theorem bagMoves_settleJam {s : State} (hs : receiptsOrdered s) {r : Record} (hr : s.intakeRecord = some r)
    (d : Disposition) : BagMoves s (s.settleJam r d) 1 0 := by
  obtain ⟨hmem, hst⟩ := mem_of_intakeRecord hr
  cases d with
  | pocket p =>
    have clear : Changes s (s.update r.receipt fun x => { x with jammed := false }) :=
      changes_update hmem { Kept.refl r with } rfl
    obtain ⟨x, hx, hxs, alike⟩ := alike_update hs hmem (fun x => { x with jammed := false }) ⟨rfl, rfl, rfl, rfl⟩ rfl
    exact BagKept.trans_moves (clear.bagKept hs)
      (bagMoves_place (clear.keeps Change.keeps_receiptsOrdered hs) hx (hxs.trans hst) alike)
  | removed =>
    have moves := bagMoves_update (t := s.settleJam r .removed) hs hmem rfl fun sized => sized (by simp [hst, RecState.inCustody])
    simpa [intakes, hst] using moves

/-- Identification brings one record into INTAKE, with the size class of the drop (R5, R100). -/
theorem bagMoves_openRecord {s t : State} (hs : receiptsOrdered s) (size : Safety.sized s.intake.readings.size)
    (h : s.openRecord = some t) : BagMoves s t 0 1 := by
  obtain ⟨_, _, _, -, -, rfl⟩ | ⟨r, hr, hst, rfl⟩ := openRecord_cases h
  · exact bagMoves_create fun _ => size
  · have before : r.state ≠ .intake := by
      obtain hst | hst := hst <;> simp [hst]
    have moves := bagMoves_update (t := s.update r.receipt fun x => x.matched s.intake.readings.size) hs hr rfl fun _ => size
    simpa [intakes, before, Record.matched] using moves

end Sys2Proof.CustodyProofs
end

section
/-! PROOF. What every command does to the drop, and from it: every step keeps the drop and its record together (R4, R94,
R106, R107, R110, R117). -/

namespace Sys2Proof.CustodyProofs

open Sys2Proof.Machine Sys2Proof.Safety

/-! ## Requests -/

/-- The chute is tested again after a change that the sequencer does not see. -/
theorem SeqKept.retest {s t : State} (h : seqView t = seqView s) : SeqKept s t.retest :=
  (SeqKept.same h).trans (seqKept_retest t)

section Requests

variable {s t : State} {l : Line} {name : BitVec 32} {owner : State → State × Answer}

theorem seqKept_takeRequest (h : takeRequest s l name owner = .next t) (ho : SeqKept s (owner s).1) : SeqKept s t := by
  rw [takeRequest_eq] at h
  obtain rfl := Host.Outcome.next.inj h
  split
  · exact ho.trans (.same (by simp [seqView]))
  · exact .refl s

theorem seqKept_takeRequest_same (h : takeRequest s l name owner = .next t) (ho : seqView (owner s).1 = seqView s) :
    SeqKept s t := seqKept_takeRequest h (.same ho)

theorem seqKept_writeSetting (h : writeSetting s name owner = .next t) (ho : SeqKept s (owner s).1) : SeqKept s t := by
  refine seqKept_takeRequest h ?_
  split
  · exact .refl s
  · exact ho

theorem seqKept_takePanel (h : takePanel s name owner = .next t) (ho : SeqKept s.restartIdle (owner s.restartIdle).1) :
    SeqKept s t :=
  seqKept_takeRequest h ((SeqKept.same (by simp [seqView])).trans ho)

theorem seqKept_takeEvent {f : State → State} (h : takeEvent s f = .next t) (hf : SeqKept s (f s)) : SeqKept s t := by
  rw [takeEvent_eq] at h
  obtain rfl := Host.Outcome.next.inj h
  split
  · exact .refl s
  · exact hf

end Requests

theorem seqView_advise (s : State) (tag : Tag) (a : Advice) : seqView (s.advise tag a).1 = seqView s := by
  unfold State.advise
  (repeat' split) <;> simp [seqView, ok, refuse]

theorem seqView_credential (s : State) (id : BitVec 24) : seqView (s.credential id).1 = seqView s := by
  unfold State.credential
  (repeat' split) <;> rfl

theorem seqKept_withdrawAdvice (s : State) (tag : Tag) (wanted : RecState) :
    SeqKept s (s.withdrawAdvice tag wanted).1 := by
  unfold State.withdrawAdvice
  split
  · exact .refl s
  split
  · exact .refl s
  split
  · exact .refl s
  split
  · exact .refl s
  · exact .retest (by simp [seqView])

theorem seqKept_confirm (s : State) (n counted : Nat) (ids : List (BitVec 24)) : SeqKept s (s.confirm n counted ids).1 := by
  unfold State.confirm
  split
  · exact .refl s
  split
  · exact .refl s
  split
  · exact .refl s
  split
  · exact .refl s
  split
  · exact .refl s
  · exact .retest (by simp [seqView])

theorem seqKept_afterStaging {s t : State} (q : Fin 21) (h : seqView t = seqView s) : SeqKept s (t.afterStaging q) := by
  unfold State.afterStaging
  split
  · exact .retest h
  · exact .same h

/-- A request other than JAMC keeps the sequencer's side. -/
theorem seqKept_runRequest {i : Instr} {s t : State} (notJamc : ∀ id d, i ≠ .jamc id d) (h : runRequest i s = .next t) :
    SeqKept s t := by
  cases i
  all_goals dsimp only [runRequest] at h
  case jamc => exact absurd rfl (notJamc _ _)
  case advs =>
    refine seqKept_takeRequest_same h ?_
    split
    · rfl
    · exact seqView_advise ..
  case wdrw => exact seqKept_takeRequest h (seqKept_withdrawAdvice _ _ _)
  case retr => exact seqKept_takeRequest h (seqKept_withdrawAdvice _ _ _)
  case cnfm => exact seqKept_takeRequest h (seqKept_confirm _ _ _ _)
  case nopn | ncls | wipe =>
    refine seqKept_takeRequest h ?_
    split
    · exact .refl s
    · exact SeqKept.retest (by simp [seqView, State.wipe])
  case ackl =>
    refine seqKept_takeRequest h ?_
    split
    · exact .refl s
    split
    · exact .refl s
    · exact SeqKept.retest (by simp [seqView])
  case home =>
    refine seqKept_takeRequest h ?_
    split
    · exact .refl s
    split
    · exact .refl s
    split
    · exact .refl s
    · exact seqKept_beginSearch s
  case wndw =>
    refine seqKept_takeRequest h ?_
    split
    · exact .refl s
    · exact seqKept_afterPermit (.same rfl)
  case rnga => exact seqKept_writeSetting h (.retest rfl)
  case genr => exact seqKept_writeSetting h (.retest rfl)
  case prtv =>
    refine seqKept_takePanel h ?_
    split
    · exact .refl _
    split
    · exact .refl _
    split
    · exact .refl _
    split
    · exact .refl _
    · exact seqKept_enqueue nofun
  case pcls =>
    refine seqKept_takePanel h ?_
    split
    · exact .refl _
    · exact seqKept_closeSession _
  case cred => exact seqKept_takePanel h (.same (seqView_credential ..))
  case notg =>
    refine seqKept_takePanel h ?_
    split
    · exact .refl _
    split
    · exact .refl _
    split
    · exact .refl _
    split
    · exact .refl _
    · exact seqKept_afterStaging _ (by simp [seqView, State.light])
  case read | ftag | lcus | lsta | lpkt | pkts | ntot | stat | clrs | timwRead | time =>
    exact seqKept_takeRequest_same h (by (repeat' split) <;> simp [seqView, ok, refuse])
  case pcap | rngw | denw | tolw | rost | polw | timw | save =>
    exact seqKept_writeSetting h (.same (by (repeat' split) <;> simp [seqView, ok, refuse]))
  -- no other command is a request: it has no effect here
  all_goals exact Host.Outcome.next.inj h ▸ .refl _

/-! ## Events -/

/-- READY goes on to LOADING (R99). -/
theorem seqKept_enterLoading {s : State} (h : s.intake.phase = .ready) : SeqKept s s.enterLoading := by
  intro hs
  have off := takeUp_of_phase hs.1 (by simp [h]) (by simp [h])
  have requests := noRequest_of_phase hs.1 (by simp [h]) (by simp [h])
  refine ⟨⟨seqOpen_of_noRequest (by simpa [noRequest, State.enterLoading] using requests) ?_ ?_ ?_ ?_, ?_⟩, ?_⟩ <;>
    simp [State.enterLoading, h, off, hasRecord]

/-- LOADING goes on to IDENTIFY with the size class of the bag (R100). -/
theorem seqKept_enterIdentify {s : State} (h : s.intake.phase = .loading) : SeqKept s s.enterIdentify := by
  intro hs
  have off := takeUp_of_phase hs.1 (by simp [h]) (by simp [h])
  have requests := noRequest_of_phase hs.1 (by simp [h]) (by simp [h])
  refine ⟨⟨⟨fun _ => by simpa [State.enterIdentify] using sized_sizeClass _, ?_, ?_, ?_⟩, ?_⟩, ?_⟩
  all_goals simp [State.enterIdentify, h, off, hasRecord]
  exact requests

/-- LOADING ends without a bag: the chute is tested (R99). -/
theorem seqKept_emptyLoading {s t : State} (h : s.intake.phase = .loading)
    (queue : t.pcc.queue = s.pcc.queue) (takeUp : t.intake.takeUp = s.intake.takeUp) : SeqKept s t.testChute := by
  intro hs
  have off := takeUp_of_phase hs.1 (by simp [h]) (by simp [h])
  have requests : noRequest t := by
    unfold noRequest
    rw [queue]
    exact noRequest_of_phase hs.1 (by simp [h]) (by simp [h])
  refine (seqRight_testChute requests (by simp [takeUp, off])).imp_right fun e => e.trans (by simp [h, hasRecord])

/-- A write of the readings that leaves the size class and the chosen pocket as they are. -/
theorem seqKept_readings {s t : State} (phase : t.intake.phase = s.intake.phase) (takeUp : t.intake.takeUp = s.intake.takeUp)
    (size : t.intake.readings.size = s.intake.readings.size) (chosen : t.intake.readings.chosen = s.intake.readings.chosen)
    (pcc : t.pcc = s.pcc) : SeqKept s t := by
  intro hs
  unfold seqRight seqOpen at *
  rw [phase, takeUp, size, chosen, pcc]
  exact ⟨hs, rfl⟩

theorem takeRead_keeps (x : Readings) (read : TagRead) :
    (x.takeRead read).size = x.size ∧ (x.takeRead read).chosen = x.chosen := by
  unfold Readings.takeRead
  (repeat' split) <;> simp

theorem seqKept_scan (s : State) (t : Tag) (atMs : Nat) (q : Fin 21) : SeqKept s (s.scan t atMs q) := by
  unfold State.scan
  split
  next => exact .same rfl
  next =>
    split
    next r e => exact seqKept_afterStaging q (by simp [seqView, State.light])
    next =>
      unfold State.scanClaimant
      exact .same (by (repeat' split) <;> simp [seqView, State.light])

theorem seqKept_hatchRead (s : State) (x : TagRead) (atMs : Nat) : SeqKept s (s.hatchRead x atMs) := by
  have idle : SeqKept s s.restartIdle := .same (by simp [seqView])
  unfold State.hatchRead
  split
  next => exact .refl s
  next =>
    split
    next => split; exacts [.same rfl, .refl s]
    next => split; exacts [idle.trans (seqKept_scan _ _ _ _), idle]

theorem seqKept_moveStep {s : State} (m : Move) (dir : Dir) (h : ∀ x, s.pcc.drum ≠ .homing x) :
    SeqKept s (s.moveStep m dir) := by
  unfold State.moveStep
  split
  · split
    · exact .refl s
    · split
      · exact seqKept_arriveAt _ h
      · exact .same rfl
  · exact seqKept_carouselFault s

theorem seqKept_searchStep (s : State) (x : Search) (dir : Dir) : SeqKept s (s.searchStep x dir) := by
  unfold State.searchStep
  split
  · exact seqKept_carouselFault s
  · split
    · exact seqKept_carouselFault s
    · exact fun hs => ⟨⟨hs.1, fun _ => ⟨_, rfl⟩⟩, rfl⟩

theorem seqKept_encoderStep {s t : State} {dir : Dir} (h : execEncoderStep dir s = .next t) : SeqKept s t := by
  refine seqKept_takeEvent h (SeqKept.trans (t := s.setPins { s.pins with refMark := false }) (.same rfl) ?_)
  dsimp only
  split
  · exact seqKept_carouselFault _
  · exact seqKept_carouselFault _
  next m _ e => exact seqKept_moveStep m dir fun x hx => by cases e.symm.trans hx
  · exact seqKept_searchStep _ _ _
  · split
    · exact seqKept_carouselFault _
    · exact .refl _
  · exact .refl _

theorem seqKept_hatchOpens (s : State) : SeqKept s s.hatchOpens := by
  have pins : SeqKept s (s.setPins { s.pins with hatchShut := false }) := .same rfl
  unfold State.hatchOpens
  dsimp only
  split
  · exact .same rfl
  · exact pins
  · split
    · exact pins.trans (seqKept_carouselFault _)
    · exact pins.trans (seqKept_carouselFault _)
    · exact pins.trans (seqKept_carouselFault _)
    · exact pins
    · exact pins
    · exact pins

theorem seqKept_hatchShuts (s : State) : SeqKept s s.hatchShuts := by
  have pins : SeqKept s (s.setPins { s.pins with hatchShut := true }) := .same rfl
  unfold State.hatchShuts
  dsimp only
  split
  · exact pins
  · exact SeqKept.trans (.same (by simp [seqView])) (seqKept_interlockSecured _)
  · exact pins.trans (seqKept_interlockSecured _)

theorem phase_of_weighing {s : State} (h : s.weighing = true) : s.intake.phase = .weigh := by
  simp only [State.weighing, Bool.and_eq_true, beq_iff_eq] at h
  exact h.1

/-- A plain event keeps the sequencer's side. -/
theorem seqKept_event {c : Instr} {s t : State} (plain : plainEvent c = true) (h : exec c s = .next t) : SeqKept s t := by
  cases c
  case resetHold =>
    obtain rfl := Host.Outcome.next.inj h
    exact .same (t := { s with
      resetHeld := true, ls := { s.ls with branch := {}, panel := {}, attention := false } }) rfl
  case encoderStep => exact seqKept_encoderStep h
  all_goals dsimp only [exec] at h
  case graceExpiry => exact seqKept_takeEvent h (.same (by unfold State.expireGrace; split <;> simp [seqView]))
  case handoverExpiry => exact seqKept_takeEvent h (.same (by unfold State.expireHandover; split <;> simp [seqView]))
  case drawerOpened =>
    refine seqKept_takeEvent h (SeqKept.trans (t := s.setPins { s.pins with drawerShut := false }) (.same rfl) ?_)
    dsimp only
    split
    next e => exact seqKept_enterLoading e
    next => exact .refl _
  case drawerShut bagPresent beams =>
    refine seqKept_takeEvent h (SeqKept.trans
      (t := s.setPins { s.pins with drawerShut := true, bagPresent, beams }) (.same rfl) ?_)
    dsimp only
    split
    next e =>
      split
      · exact seqKept_enterIdentify e
      · exact seqKept_emptyLoading e rfl rfl
    next => exact .refl _
  case drawerReadTaken =>
    refine seqKept_takeEvent h ?_
    split
    next => exact .refl s
    next read _ =>
      refine seqKept_readings rfl rfl ?_ ?_ rfl <;>
        · simp only [State.setIntake_intake]
          split
          · simp [takeRead_keeps]
          · rfl
  case scaleReading value steady =>
    refine seqKept_takeEvent h ?_
    split
    next e =>
      split
      · exact seqKept_takeValue _ _ (phase_of_weighing e)
      · exact seqKept_readings rfl rfl rfl rfl rfl
    next => exact .refl s
  case weighTimerExpiry =>
    refine seqKept_takeEvent h ?_
    split
    next e => exact seqKept_takeValue _ _ (phase_of_weighing e)
    next => exact .refl s
  case routeDecision => exact seqKept_takeEvent h (seqKept_takeRoute s)
  case jobStart => exact seqKept_takeEvent h (seqKept_workOn s)
  case jobCompletion =>
    refine seqKept_takeEvent h ?_
    split
    · exact (SeqKept.same (by simp [seqView])).trans (seqKept_workOn _)
    · exact .refl s
  case tipTimerExpiry =>
    refine seqKept_takeEvent h ?_
    split
    next e => exact seqKept_enterJammed (by simp [e.1, hasRecord])
    next => exact .refl s
  case hatchScan atMs =>
    refine seqKept_takeEvent h ?_
    split
    · exact .refl s
    next x _ =>
      exact SeqKept.trans (t := s.setRc { s.rc with reader := { s.rc.reader with holding := .none } }) (.same rfl)
        (seqKept_hatchRead _ x atMs)
  case carouselServe => exact seqKept_takeEvent h (seqKept_serve s)
  case settleExpiry =>
    refine seqKept_takeEvent h ?_
    split
    next m e => exact seqKept_drum (by simp) (by simp) (by simp) (by simp) fun hs => takeUp_of_drum hs (by simp [e])
    all_goals exact .refl s
  case arrivalTimerExpiry | homingTimerExpiry =>
    refine seqKept_takeEvent h ?_
    split
    · exact seqKept_carouselFault s
    all_goals exact .refl s
  case referenceMark =>
    refine seqKept_takeEvent h (SeqKept.trans (t := s.setPins { s.pins with refMark := true }) (.same rfl) ?_)
    dsimp only
    split
    · exact seqKept_homed _
    all_goals exact .refl _
  case hatchShutSensor shut =>
    refine seqKept_takeEvent h ?_
    split
    · exact seqKept_hatchShuts s
    · exact seqKept_hatchOpens s
  case unopenedTimerExpiry =>
    refine seqKept_takeEvent h ?_
    split
    · exact (SeqKept.same (by simp [seqView])).trans (seqKept_serve _)
    · exact .refl s
  case idleExpiry =>
    refine seqKept_takeEvent h ?_
    split
    · exact seqKept_leaveOpen s
    all_goals exact .refl s
  case timeLockContact => exact seqKept_takeEvent h (seqKept_afterPermit (.same rfl))
  case tagReadComplete reader read =>
    exact seqKept_takeEvent h (.same (by cases reader <;> simp [seqView, State.setReader]))
  case saveCompletion | frameGap | replyEnd | drawerTimerExpiry | lampExpiry | pairingExpiry | clockTick =>
    exact seqKept_takeEvent h (.same (by (repeat' split) <;> simp [seqView]))
  -- the other commands are requests, or not plain
  all_goals simp [plainEvent, Instr.encode] at plain

end Sys2Proof.CustodyProofs
end

section
/-! PROOF. The commands that open, place or keep the drop's record, frames, and from all of it: every step keeps the drop and
its record together (R4, R94, R109, R114, R116, R117, R162). -/

namespace Sys2Proof.CustodyProofs

open Sys2Proof.Machine Sys2Proof.Safety

/-! ## The two sides together -/

section Sides

variable {s t : State}

theorem dropRight_of_counts {l k : Nat} (ht : receiptsOrdered t) (bag : BagMoves s t l k) (hs : receiptsOrdered s) (hd : dropRight s)
    (seq : seqRight t) (count : (if hasRecord t.intake.phase = true then 1 else 0) + l =
      (if hasRecord s.intake.phase = true then 1 else 0) + k) : dropRight t := by
  obtain ⟨sized, counted⟩ := (bagRight_iff hs).mp (dropRight_iff.mp hd).1
  refine dropRight_iff.mpr ⟨(bagRight_iff ht).mpr ⟨bag.1 sized, ?_⟩, seq⟩
  have moved := bag.2
  omega

theorem dropRight_of_kept (hs : receiptsOrdered s) (ht : receiptsOrdered t) (bag : BagKept s t) (seq : SeqKept s t)
    (hd : dropRight s) : dropRight t := by
  obtain ⟨right, e⟩ := seq (dropRight_iff.mp hd).2
  exact dropRight_of_counts ht bag hs hd right (by rw [e])

/-- The drop begins: its record comes into INTAKE (R103). -/
theorem dropRight_of_opened (hs : receiptsOrdered s) (ht : receiptsOrdered t) (bag : BagMoves s t 0 1) (hd : dropRight s)
    (before : hasRecord s.intake.phase = false) (after : seqRight t ∧ hasRecord t.intake.phase = true) : dropRight t :=
  dropRight_of_counts ht bag hs hd after.1 (by rw [before, after.2]; simp)

/-- The drop ends: its record leaves INTAKE (R109, R114). -/
theorem dropRight_of_ended (hs : receiptsOrdered s) (ht : receiptsOrdered t) (bag : BagMoves s t 1 0) (hd : dropRight s)
    (before : hasRecord s.intake.phase = true) (after : seqRight t ∧ hasRecord t.intake.phase = false) : dropRight t :=
  dropRight_of_counts ht bag hs hd after.1 (by rw [before, after.2]; simp)

theorem dropRight_congr (hr : t.cr.records = s.cr.records) (hv : seqView t = seqView s) (hd : dropRight s) :
    dropRight t := by
  obtain ⟨bag, seq⟩ := dropRight_iff.mp hd
  obtain ⟨right, e⟩ := SeqKept.same hv seq
  refine dropRight_iff.mpr ⟨?_, right⟩
  unfold bagRight allSized oneIntake noIntake inIntake holds at *
  rwa [hr, e]

end Sides

/-! ## The end of the drop -/

/-- Every request after comes from one of the requests before. -/
def SourcesFrom (s t : State) : Prop := ∀ q ∈ t.pcc.queue, ∃ x ∈ s.pcc.queue, x.source = q.source

theorem SourcesFrom.refl (s : State) : SourcesFrom s s := fun q hq => ⟨q, hq, rfl⟩

theorem SourcesFrom.noRequest {s t : State} (h : SourcesFrom s t) (hs : noRequest s) : noRequest t := by
  intro q hq e
  obtain ⟨x, hx, e'⟩ := h q hq
  exact hs x hx (e'.trans e)

theorem sourcesFrom_arrive (s : State) : SourcesFrom s s.arrive := by
  unfold State.arrive
  split
  · exact .refl s
  · split
    · intro q hq
      obtain ⟨x, hx, rfl⟩ := List.mem_map.mp hq
      exact ⟨x, hx, by split <;> rfl⟩
    · have kept : SourcesFrom s (s.setQueue (s.pcc.queue.filter fun x => x.stage != .serving)) :=
        fun q hq => ⟨q, List.mem_of_mem_filter hq, rfl⟩
      dsimp only
      split
      · exact kept
      · exact kept

theorem sourcesFrom_serve (s : State) : SourcesFrom s s.serve := by
  unfold State.serve
  split
  · split
    · exact .refl s
    · next src _ =>
      have marked : SourcesFrom s (s.setQueue (markServing src s.pcc.queue)) := fun q hq => source_of_mem_markServing hq
      dsimp only
      split
      · exact marked
      · split
        · intro q hq
          obtain ⟨x, hx, e⟩ := sourcesFrom_arrive _ q hq
          obtain ⟨y, hy, e'⟩ := marked x hx
          exact ⟨y, hy, e'.trans e⟩
        · intro q hq
          rw [State.startMove_pcc_queue] at hq
          exact marked q hq
  · exact .refl s

theorem sourcesFrom_prePositionOrServe (s : State) : SourcesFrom s s.prePositionOrServe := by
  unfold State.prePositionOrServe
  split
  · split
    · intro q hq
      rw [State.startMove_pcc_queue] at hq
      exact ⟨q, hq, rfl⟩
    · exact .refl s
  · exact sourcesFrom_serve s

theorem rememberIntake_queue (c : Carousel) (p : Fin 21) (x : Option RangeRef) : (c.rememberIntake p x).queue = c.queue := by
  unfold Carousel.rememberIntake
  split <;> rfl

/-- The completion of a tip tests the chute, with no request of the sequencer left (R109). -/
theorem seqRight_completeTip {s : State} (hs : seqOpen s) (h : s.intake.phase = .tip) (r : Record) (p : Fin 21) :
    seqRight (s.completeTip r p) ∧ hasRecord (s.completeTip r p).intake.phase = false := by
  have off := takeUp_of_phase hs (by simp [h]) (by simp [h])
  refine seqRight_testChute ((sourcesFrom_prePositionOrServe _).noRequest ?_)
    (by simp [State.clearReadings, State.freeStation, off])
  intro q hq
  have freed : q ∈ s.pcc.queue.filter fun r => r.source != .intake := by
    simpa [State.clearReadings, State.freeStation, rememberIntake_queue] using hq
  simpa using (List.mem_filter.mp freed).2

theorem bagMoves_completeTip {s : State} (hs : receiptsOrdered s) {r : Record} (hr : s.intakeRecord = some r) (p : Fin 21) :
    BagMoves s (s.completeTip r p) 1 0 := by
  obtain ⟨hmem, hst⟩ := mem_of_intakeRecord hr
  have placed : BagMoves s ((s.setHold none).place r p) 1 0 :=
    bagMoves_place (s := s.setHold none) hs hmem hst ⟨rfl, rfl, rfl, rfl⟩
  exact placed.trans_kept (.of_records (by simp [State.completeTip, State.freeStation, State.clearReadings]))

theorem dropRight_tipCompletion {s t : State} (hs : receiptsOrdered s) (hd : dropRight s)
    (h : exec .tipCompletion s = .next t) : dropRight t := by
  dsimp only [exec, execTipCompletion] at h
  rw [takeEvent_eq] at h
  obtain rfl := Host.Outcome.next.inj h
  split
  · exact hd
  split
  next r p phase record _ =>
    have ordered := (steps_completeTip (p := p) record).keeps Change.keeps_receiptsOrdered DropChange.keeps_receiptsOrdered hs
    exact dropRight_of_ended hs ordered (bagMoves_completeTip hs record p) hd (by simp [phase, hasRecord])
      (seqRight_completeTip (dropRight_iff.mp hd).2.1 phase r p)
  next => exact hd

/-- JAMC that is answered OK tests the chute (R114). -/
theorem seqRight_leaveJammed {s u : State} (hs : seqOpen s) (h : s.intake.phase = .jammed)
    (queue : u.pcc.queue = s.pcc.queue) (takeUp : u.intake.takeUp = s.intake.takeUp) :
    seqRight u.leaveJammed ∧ hasRecord u.leaveJammed.intake.phase = false := by
  have off := takeUp_of_phase hs (by simp [h]) (by simp [h])
  refine seqRight_testChute ?_ (by simp [State.clearReadings, takeUp, off])
  intro q hq
  exact noRequest_of_phase hs (by simp [h]) (by simp [h]) q (queue ▸ hq)

theorem settleJam_frame (s : State) (r : Record) (d : Disposition) :
    (s.settleJam r d).pcc.queue = s.pcc.queue ∧ (s.settleJam r d).intake.takeUp = s.intake.takeUp := by
  cases d <;> simp [State.settleJam]

theorem dropRight_answer {s : State} (l : Line) (name : BitVec 32) (a : Answer) (hd : dropRight s) :
    dropRight (s.answer l name a) := dropRight_congr (by simp) (by simp [seqView]) hd

theorem dropRight_jamc {id : BitVec 24} {d : BitVec 8} {s t : State} (hs : receiptsOrdered s) (hd : dropRight s)
    (h : execJamc id d s = .next t) : dropRight t := by
  unfold execJamc at h
  rw [takeRequest_eq] at h
  obtain rfl := Host.Outcome.next.inj h
  split
  next =>
    refine dropRight_answer _ _ _ ?_
    split
    · exact hd
    next x _ =>
      split
      · exact hd
      split
      · exact hd
      split
      · exact hd
      next phase _ _ r record =>
        split
        · exact hd
        · have phase := not_not.mp phase
          obtain ⟨queue, takeUp⟩ := settleJam_frame s r x
          have settled : (s.settleJam r x).leaveJammed.cr.records = (s.settleJam r x).cr.records := by
            simp [State.leaveJammed, State.clearReadings]
          have ordered := receiptsOrdered_congr (ledger_leaveJammed _)
            ((steps_settleJam hs record x).keeps Change.keeps_receiptsOrdered DropChange.keeps_receiptsOrdered hs)
          exact dropRight_of_ended hs ordered ((bagMoves_settleJam hs record x).trans_kept (.of_records settled)) hd
            (by simp [phase, hasRecord]) (seqRight_leaveJammed (dropRight_iff.mp hd).2.1 phase queue takeUp)
  next => exact hd

/-! ## Identification -/

/-- After the tag window the drop goes on to WEIGH, or to JAMMED without a hold (R103, R117). -/
theorem seqRight_afterWindow {s t : State} (hs : seqOpen s) (h : s.intake.phase = .identify) (hv : seqView t = seqView s) :
    seqRight t.afterWindow ∧ hasRecord t.afterWindow.intake.phase = true := by
  have off := takeUp_of_phase hs (by simp [h]) (by simp [h])
  have requests := noRequest_of_phase hs (by simp [h]) (by simp [h])
  simp only [seqView, Prod.mk.injEq] at hv
  obtain ⟨-, -, takeUp, queue, -⟩ := hv
  unfold State.afterWindow
  dsimp only
  split
  · refine ⟨⟨seqOpen_of_noRequest (by simpa [noRequest, queue] using requests) ?_ ?_ ?_ ?_, ?_⟩, ?_⟩ <;>
      simp [takeUp, off, hasRecord]
  · exact seqRight_enterJammed (takeUp.trans off)

theorem dropRight_tagWindowExpiry {s t : State} (hs : receiptsOrdered s) (ht : receiptsOrdered t) (hd : dropRight s)
    (h : execTagWindowExpiry s = .next t) : dropRight t := by
  obtain rfl | h := whenRunning_next h
  · exact hd
  split at h
  next open_ =>
    split at h
    next => cases h
    next u e =>
      obtain rfl := Host.Outcome.next.inj h
      have view : seqView u = seqView s := by
        obtain ⟨_, _, _, -, -, rfl⟩ | ⟨_, _, _, rfl⟩ := openRecord_cases e <;> rfl
      have right := (dropRight_iff.mp hd).2.1
      have opened := bagMoves_openRecord hs (right.1 open_.1) e
      have kept := (changes_afterWindow u).bagKept ((drop_openRecord e).keeps_receiptsOrdered hs)
      exact dropRight_of_opened hs ht (opened.trans_kept kept) hd (by simp [open_.1, hasRecord])
        (seqRight_afterWindow right open_.1 view)
  next => exact Host.Outcome.next.inj h ▸ hd

/-! ## Restart -/

/-- At start-up the sequencer is JAMMED with an INTAKE record, or waits for the end of homing (R116, R117). -/
theorem seqRight_startIntake {s : State} (queue : s.pcc.queue = [])
    (drum : s.pcc.drum = .homing .none) :
    seqRight s.startIntake ∧ hasRecord s.startIntake.intake.phase = s.intakeRecord.isSome := by
  unfold State.startIntake
  cases s.intakeRecord with
  | some r => simp [seqRight, seqOpen, queue, hasRecord]
  | none => cases s.cr.night <;> simp [seqRight, seqOpen, queue, drum, hasRecord]

theorem seqKept_secondPart (s : State) : SeqKept s s.secondPart := by
  unfold State.secondPart
  split
  · exact seqKept_interlockSecured s
  · exact .refl s

theorem intakeRecord_isSome_iff (s : State) : s.intakeRecord.isSome = true ↔ intakeCount s ≠ 0 := by
  simp [State.intakeRecord, intakeCount, List.countP_eq_zero]

theorem dropRight_restart {straps : Straps} {levels : Levels} {lost answers : Bool} {n : Nat} {s t : State}
    (hs : receiptsOrdered s) (ht : receiptsOrdered t) (hd : dropRight s)
    (h : execRestart straps levels lost answers n s = .next t) : dropRight t := by
  have counted : allSized t ∧ intakeCount t ≤ 1 := by
    cases gone : lost || !s.cr.storeValid with
    | false =>
      obtain ⟨sizes, count⟩ := (changes_restart hs h gone).bagKept hs
      obtain ⟨sized, one⟩ := (bagRight_iff hs).mp (dropRight_iff.mp hd).1
      refine ⟨sizes sized, ?_⟩
      split at one <;> omega
    | true =>
      have none : t.cr.records = [] := congrArg Ledger.records (storeLost_restart h gone)
      simp [allSized, intakeCount, none]
  rw [execRestart_eq] at h
  generalize hu : restartRestored s straps levels n answers (lost || !s.cr.storeValid) = u at h
  have cold : u.pcc.queue = [] ∧ u.pcc.drum = .homing .none := by
    subst hu
    cases lost || !s.cr.storeValid <;> exact ⟨rfl, rfl⟩
  obtain ⟨pcc, -⟩ := refill_frame u
  obtain ⟨seq, started⟩ := seqRight_startIntake (s := u.refill.startUpFlags)
    (by simp [State.startUpFlags, pcc, cold.1])
    (by simp [State.startUpFlags, pcc, cold.2])
  obtain ⟨right, phase⟩ := seqKept_secondPart _ seq
  obtain rfl := Host.Outcome.next.inj h
  refine dropRight_iff.mpr ⟨(bagRight_iff ht).mpr ⟨counted.1, ?_⟩, right⟩
  have records : intakeCount u.refill.startUpFlags.startIntake.secondPart = intakeCount u.refill.startUpFlags := by
    unfold intakeCount
    rw [show u.refill.startUpFlags.startIntake.secondPart.cr.records = u.refill.startUpFlags.cr.records from
      (congrArg Ledger.records (ledger_startUp u.refill)).trans (by simp [ledger, State.startUpFlags])]
  have one := counted.2
  rw [if_congr (phase.trans started ▸ intakeRecord_isSome_iff _) rfl rfl]
  split <;> omega

/-! ## Requests and frames -/

theorem registerRight_runRequest {i : Instr} {s t : State} (hs : registerRight s) (h : runRequest i s = .next t) :
    registerRight t := by
  obtain changes | ⟨-, -, -, steps⟩ | ⟨_, _, _, -, retired⟩ := runRequest_ledger hs.1 h
  · exact changes.keeps Change.keeps_registerRight hs
  · exact steps.keeps Change.keeps_registerRight DropChange.keeps_registerRight hs
  · exact registerRight_of_retired retired hs

theorem dropRight_runRequest {i : Instr} {s t : State} (hs : registerRight s) (hd : dropRight s)
    (h : runRequest i s = .next t) : dropRight t := by
  have ht := registerRight_runRequest hs h
  by_cases jamc : ∃ id d, i = .jamc id d
  · obtain ⟨id, d, rfl⟩ := jamc
    exact dropRight_jamc hs.1 hd h
  · have seq := seqKept_runRequest (fun id d e => jamc ⟨id, d, e⟩) h
    obtain changes | ⟨id, d, e, -⟩ | ⟨_, _, _, -, retired⟩ := runRequest_ledger hs.1 h
    · exact dropRight_of_kept hs.1 ht.1 (changes.bagKept hs.1) seq hd
    · exact absurd ⟨id, d, e⟩ jamc
    · exact dropRight_of_kept hs.1 ht.1 (retired.bagKept hs.1) seq hd

/-- What the lines and every request keep, a completed frame keeps (R162). -/
theorem checkFrame_keeps {P : State → Prop} (answer : ∀ s l name a, P s → P (s.answer l name a))
    (request : ∀ i s t, P s → runRequest i s = .next t → P t) {l : Line} {f : Frame} {s t : State} (hs : P s)
    (h : checkFrame l f s = .next t) : P t := by
  unfold checkFrame at h
  split at h
  · exact Host.Outcome.next.inj h ▸ hs
  split at h
  · exact Host.Outcome.next.inj h ▸ hs
  split at h
  · exact Host.Outcome.next.inj h ▸ answer _ _ _ _ hs
  · exact Host.Outcome.next.inj h ▸ answer _ _ _ _ hs
  · exact request _ _ _ hs h

theorem frameRejected_keeps {P : State → Prop} (answer : ∀ s l name a, P s → P (s.answer l name a))
    (receiver : ∀ s l x, P s → P (s.setReceiver l x)) (request : ∀ i s t, P s → runRequest i s = .next t → P t)
    {l : Line} {f : Frame} {s t : State} (hs : P s) (h : execFrameRejected l f s = .next t) : P t := by
  obtain rfl | h := whenRunning_next h
  · exact hs
  split at h
  · exact Host.Outcome.next.inj h ▸ hs
  · exact checkFrame_keeps answer request (receiver _ _ _ hs) h

theorem lineByteReceived_keeps {P : State → Prop} (answer : ∀ s l name a, P s → P (s.answer l name a))
    (receiver : ∀ s l x, P s → P (s.setReceiver l x)) (request : ∀ i s t, P s → runRequest i s = .next t → P t)
    {l : Line} {b : Byte} {s t : State} (hs : P s) (h : execLineByteReceived l b s = .next t) : P t := by
  obtain rfl | h := whenRunning_next h
  · exact hs
  split at h
  · exact Host.Outcome.next.inj h ▸ hs
  split at h
  · obtain rfl := Host.Outcome.next.inj h
    split
    · exact receiver _ _ _ hs
    · exact hs
  unfold frameByte at h
  split at h
  · exact Host.Outcome.next.inj h ▸ receiver _ _ _ hs
  split at h
  · exact checkFrame_keeps answer request (receiver _ _ _ hs) h
  · exact Host.Outcome.next.inj h ▸ receiver _ _ _ hs

/-- Register and drop, as a frame keeps them. -/
def bothRight (s : State) : Prop := registerRight s ∧ dropRight s

theorem bothRight_answer (s : State) (l : Line) (name : BitVec 32) (a : Answer) (h : bothRight s) :
    bothRight (s.answer l name a) :=
  ⟨registerRight_congr (ledger_answer ..) h.1, dropRight_answer l name a h.2⟩

theorem bothRight_setReceiver (s : State) (l : Line) (x : Receiver) (h : bothRight s) : bothRight (s.setReceiver l x) :=
  ⟨registerRight_congr (ledger_setReceiver ..) h.1, dropRight_congr (by simp) (by simp [seqView]) h.2⟩

theorem bothRight_runRequest (i : Instr) (s t : State) (hs : bothRight s) (h : runRequest i s = .next t) : bothRight t :=
  ⟨registerRight_runRequest hs.1 h, dropRight_runRequest hs.1 hs.2 h⟩

/-! ## Every command -/

theorem exec_keeps_dropRight {c : Instr} {s t : State} (hs : registerRight s) (hd : dropRight s)
    (h : exec c s = .next t) : dropRight t := by
  have ht := exec_keeps_registerRight h hs
  cases request : c.encode.isSome with
  | true => exact dropRight_runRequest hs hd (exec_eq_runRequest request s ▸ h)
  | false =>
    cases plain : plainEvent c with
    | true =>
      exact dropRight_of_kept hs.1 ht.1 ((changes_event plain h).bagKept hs.1) (seqKept_event plain h) hd
    | false =>
      cases c
      case tipCompletion => exact dropRight_tipCompletion hs.1 hd h
      case tagWindowExpiry => exact dropRight_tagWindowExpiry hs.1 ht.1 hd h
      case restart => exact dropRight_restart hs.1 ht.1 hd h
      case frameRejected =>
        exact (frameRejected_keeps bothRight_answer bothRight_setReceiver bothRight_runRequest ⟨hs, hd⟩ h).2
      case lineByteReceived =>
        exact (lineByteReceived_keeps bothRight_answer bothRight_setReceiver bothRight_runRequest ⟨hs, hd⟩ h).2
      -- every other command is a request or a plain event
      all_goals simp [plainEvent, request] at plain

/-- Settles O54: each command keeps the sequencer's side, and moves the record of the drop into INTAKE and out of it as the
phase says. -/
theorem stepKeepsTheDrop : Obligations.StepKeepsTheDrop := by
  intro s t hs hd h
  obtain rfl | ⟨c, rest, h⟩ := step_cases h
  · exact hd
  · exact exec_keeps_dropRight (s := s.withPending rest) (registerRight_congr (s := s) rfl hs) (dropRight_congr (s := s) rfl rfl hd) h

end Sys2Proof.CustodyProofs
end

section
/-! PROOF. The requests that read the register or act on it as a whole, and the record timers (R9, R19 to R29, R132, R153,
R156, R166, R167, R169), and the invariants right after reset. -/

namespace Sys2Proof.CustodyProofs

open Sys2Proof.Machine Sys2Proof.Safety

/-- An event of a module that runs. -/
theorem exec_event {c : Instr} {s t : State} {f : State → State} (running : s.resetHeld = false)
    (h : exec c s = takeEvent s f) (e : f s = t) : exec c s = .next t := by
  rw [h, takeEvent_running running, e]

/-! ## The summaries -/

/-- The summary's bytes are those of the table of R166, field by field. -/
theorem summary_eq_summaryLayout (r : Record) : r.summary = summaryLayout r := by
  unfold Record.summary summaryLayout
  rw [List.append_assoc _ (be 3 _) (be 5 _)]
  congr
  · cases r.tag <;> rfl
  · cases r.advice <;> rfl
  · rcases r.range with _ | _ | _ <;> rfl
  · cases r.nominal <;> rfl
  · rcases r.cause with _ | cause
    · rfl
    · cases cause <;> rfl
  · cases r.size <;> rfl
  · cases r.mass <;> rfl
  · rcases r.verdict with _ | verdict
    · rfl
    · cases verdict <;> rfl
  · cases r.deviation <;> rfl
  · cases r.valueSum <;> rfl
  · cases r.dropTime <;> rfl
  · cases r.advice <;> rfl

theorem retirement_eq_retirementLayout (r : Record) (counted : Nat) : r.retirement counted = retirementLayout r counted := by
  unfold Record.retirement retirementLayout
  rw [summary_eq_summaryLayout]
  cases r.advice <;> rfl

theorem length_be (n x : Nat) : (be n x).length = n := by
  induction n generalizing x with
  | zero => rfl
  | succ n ih => simp [be, ih]

theorem length_beOr (n absent : Nat) (x : Option Nat) : (beOr n absent x).length = n := by
  cases x <;> exact length_be ..

/-- A record's lines, none where no advice is attached (R118). -/
def linesOf (r : Record) : List BreakdownLine := (r.advice.map Advice.lines).getD []

theorem length_lineBytes (l : List BreakdownLine) :
    (l.flatMap fun l => byte l.denom.val :: be 2 l.count).length = 3 * l.length := by
  induction l with
  | nil => rfl
  | cons x rest ih =>
    rw [List.flatMap_cons, List.length_append, ih, List.length_cons, List.length_cons, length_be]
    omega

theorem length_summary (r : Record) : r.summary.length = 45 + 3 * (linesOf r).length := by
  have lines := length_lineBytes (linesOf r)
  unfold linesOf at *
  simp only [Record.summary, beInt, List.length_append, List.length_cons, List.length_nil, length_be, length_beOr, lines]
  omega

theorem length_retirement (r : Record) (counted : Nat) : (r.retirement counted).length = 56 + 3 * (linesOf r).length := by
  have summary := length_summary r
  simp only [Record.retirement, beInt, List.length_append, List.length_cons, length_be, summary]
  omega

/-! ## READ and FTAG -/

theorem record_of_absent {s : State} {n : Nat} (h : ∀ r ∈ s.cr.records, r.receipt ≠ n) : s.record n = none :=
  findReceipt_none h

/-- Settles O7: READ looks the record up by its receipt and FTAG by the tag index, and the summaries have the bytes of their
tables. -/
theorem recordsAreReadByReceiptAndTag : Obligations.RecordsAreReadByReceiptAndTag := by
  refine ⟨fun n s idle => ?_, fun tag s idle => ?_, fun r counted => ⟨?_, ?_, ?_, ?_⟩⟩
  · simp only [exec, execRead, takeRequest_branch idle]
    refine ⟨?_, ?_, ?_⟩
    · rintro rfl
      rfl
    · intro hn absent
      simp [hn, record_of_absent absent, refuse]
    · intro r hn hr receipt
      simp [hn, ← receipt, record_of_holds hr, ok, summary_eq_summaryLayout]
  · simp only [exec, execFtag, takeRequest_branch idle]
    refine ⟨?_, ?_, ?_⟩
    · rintro (rfl | rfl) <;> rfl
    · intro low high free
      simp [low, high, claimant_of_unclaimed free, refuse]
    · intro r low high claim
      simp [low, high, claimant_of_claims claim, ok, summary_eq_summaryLayout]
  · exact summary_eq_summaryLayout r
  · exact retirement_eq_retirementLayout r counted
  · intro a h
    simp [length_summary, length_retirement, linesOf, h]
  · intro h
    simp [length_summary, length_retirement, linesOf, h]

/-! ## The night -/

/-- Settles O13: NOPN and NCLS by the night's state. -/
theorem nightOpensAndCloses : Obligations.NightOpensAndCloses := by
  intro s idle
  simp only [exec, execNopn, execNcls, takeRequest_branch idle]
  refine ⟨fun night => ?_, fun night => ?_, fun night => ?_, fun night => ?_⟩ <;>
    · simp only [night]
      rfl

/-! ## WIPE and ACKL -/

/-- Settles O14: WIPE by whether a record is in custody, ACKL by the mark and the role of the id. -/
theorem wipeAndAcknowledge : Obligations.WipeAndAcknowledge := by
  intro s idle
  simp only [exec, execWipe, execAckl, takeRequest_branch idle]
  refine ⟨fun held => ?_, fun free => ?_, fun id pending => ?_, fun id pending denied => ?_, fun id pending role => ?_⟩
  · obtain ⟨r, hr, custody⟩ := held
    have some : (s.cr.records.any fun r => r.state.inCustody) = true :=
      List.any_eq_true.mpr ⟨r, hr, inCustody_iff.mpr custody⟩
    simp [some, refuse]
  · have none : (s.cr.records.any fun r => r.state.inCustody) = false :=
      List.any_eq_false.mpr fun r hr => by simp [not_inCustody_iff.mpr (free r hr)]
    simp only [none]
    rfl
  · simp [pending, refuse]
  · have notSupervisor : s.role id ≠ some .supervisor := by
      obtain unknown | teller := denied
      · simp [role_of_notRostered unknown]
      · simp [role_of_hasRole teller]
    simp [pending, notSupervisor, refuse]
  · simp [pending, role_of_hasRole role, ok]

/-! ## The record timers -/

theorem bne_eq_decide_ne (l : List (Nat × Nat)) (n : Nat) :
    (l.filter fun h => h.1 != n) = l.filter fun h => h.1 ≠ n :=
  List.filter_congr fun h _ => by by_cases e : h.1 = n <;> simp [e]

/-- Settles O36: an expiry changes the one record whose timer runs, and nothing where none runs. -/
theorem recordTimersExpire : Obligations.RecordTimersExpire := by
  intro s running
  refine ⟨fun r hr grace timer => ?_, fun r hr staged timer => ?_, fun n stopped => ?_, fun n stopped => ?_⟩
  · refine exec_event running rfl ?_
    simp only [record_of_holds hr, Option.any_some, grace, timer]
    rfl
  · have runs : (s.rc.handoverTimers.any fun h => h.1 == r.receipt) = true := by simpa using timer
    refine exec_event running rfl ?_
    simp only [record_of_holds hr, Option.any_some, staged, runs]
    simp only [← bne_eq_decide_ne]
    rfl
  · refine exec_event running rfl (if_neg fun h => ?_)
    obtain ⟨x, hx, test⟩ := (Option.any_eq_true _ _).mp h
    obtain ⟨hmem, rfl⟩ := mem_of_record hx
    simp only [Bool.and_eq_true, beq_iff_eq] at test
    obtain state | timer := stopped x hmem rfl
    · exact state test.1
    · simp [timer] at test
  · have silent : (s.rc.handoverTimers.any fun h => h.1 == n) = false := by simpa using stopped
    refine exec_event running rfl ?_
    simp [silent]

/-! ## Right after reset -/

/-- The module leaves reset with the register of a store loss (R27). -/
theorem storeLost_reset : StoreLost State.reset := by
  simp [StoreLost, ledger, State.reset, Register.lost]

theorem queuesRight_reset : queuesRight State.reset := by
  refine ⟨rfl, ⟨rfl, fun p => ?_⟩, ⟨?_, ?_, ?_, ?_⟩, ?_, ?_⟩
  · simp [State.reset, Carousel.heldUnits]
  all_goals simp [State.reset, Register.lost]

theorem settingsLegal_reset : settingsLegal State.reset.settings := by
  refine ⟨fun i => ?_, fun i => ?_, fun i => ?_, fun i => ?_, ?_, ?_, ?_⟩ <;>
    simp [State.settings, State.timers, State.reset, Register.lost, defaultPolicy]

/-- Settles O60: the register is empty, nothing is queued or saved, and the drum homes with the hatch locked. -/
theorem resetMeetsTheInvariants : Obligations.ResetMeetsTheInvariants := by
  refine ⟨registerRight_of_storeLost storeLost_reset, ?_, custodyRight_of_storeLost storeLost_reset, queuesRight_reset,
    ⟨settingsLegal_reset, nofun, rfl⟩, rfl, ?_, ?_, ?_⟩
  · simp [dropRight, State.reset, Register.lost, hasRecord]
  · simp [hatchRight, State.reset]
  · simp [interlockRight, State.reset]
  · unfold attentionRight
    decide

end Sys2Proof.CustodyProofs
end

section
/-! PROOF. The lists of receipts and the totals (R23, R24, R72, R78, R167, R169). -/

namespace Sys2Proof.CustodyProofs

open Sys2Proof.Machine Sys2Proof.Safety

/-! ## Codes of operands -/

theorem pocketOf_of_toNat {b : BitVec 8} {p : Fin 21} (h : b.toNat = p.val) : pocketOf b = some p := by
  unfold pocketOf
  rw [dif_pos (by omega)]
  exact congrArg some (Fin.ext h)

theorem pocketOf_eq_none {b : BitVec 8} (h : 20 < b.toNat) : pocketOf b = none := dif_neg (by omega)

theorem recStateOf_code (x : RecState) : recStateOf x.code = some x := by cases x <;> rfl

theorem code_of_recStates {n : Nat} {x : RecState} (h : recStates[n]? = some x) : x.code.toNat = n + 1 := by
  match n with
  | 0 | 1 | 2 | 3 | 4 | 5 | 6 => obtain rfl := Option.some.inj h; rfl
  | n + 7 => simp [recStates] at h

/-- A code that is none of the seven states' is no state (R23, R166). -/
theorem recStateOf_eq_none {b : BitVec 8} (h : ∀ x : RecState, x.code ≠ b) : recStateOf b = none := by
  cases e : recStateOf b with
  | none => rfl
  | some x =>
    unfold recStateOf at e
    split at e
    · cases e
    next nonzero =>
      have positive : b.toNat ≠ 0 := fun z => nonzero (BitVec.eq_of_toNat_eq z)
      have code := code_of_recStates e
      exact absurd (BitVec.eq_of_toNat_eq (by omega)) (h x)

/-- A pocket's number as a byte is the operand that names it. -/
theorem byte_of_toNat {b : BitVec 8} {n : Nat} (h : b.toNat = n) : byte n = b := by
  subst h
  exact BitVec.ofNat_toNat ..

/-! ## The lists -/

/-- The receipts from a start on of the records that pass a test, ascending as the register is (R23). -/
theorem receiptsFrom_eq (s : State) (start : Nat) {test : Record → Bool} {P : Record → Prop} [DecidablePred P]
    (h : ∀ r, test r = true ↔ P r) :
    s.receiptsFrom start test = (s.cr.records.filter fun r => P r ∧ start ≤ r.receipt).map Record.receipt := by
  refine congrArg (List.map Record.receipt) (List.filter_congr fun r _ => ?_)
  rw [Bool.eq_iff_iff]
  simp [h]

/-- The class of a pocket by its capacity and free units, as a code (R72, R165). -/
theorem classOf_code (c : Carousel) (p : Fin 21) : (c.classOf p).code =
    if c.pockets[p].capacity = 0 then 4#8 else if c.freeUnits p = 0 then 3#8 else if c.freeUnits p < 4 then 2#8 else 1#8 := by
  unfold Carousel.classOf
  by_cases none : c.pockets[p].capacity = 0
  · rw [if_pos none, if_pos none]
    rfl
  rw [if_neg none, if_neg none]
  by_cases full : c.freeUnits p = 0
  · rw [if_pos full, if_pos full]
    rfl
  rw [if_neg full, if_neg full]
  by_cases last : c.freeUnits p ≤ 3
  · rw [if_pos last, if_pos (Nat.lt_succ_of_le last)]
    rfl
  · rw [if_neg last, if_neg (by omega)]
    rfl

/-- Settles O8: LCUS and LSTA list what passes their tests, LPKT and PKTS read the pocket that the operand names, NTOT the
night's totals. -/
theorem listsAndTotalsAreRead : Obligations.ListsAndTotalsAreRead := by
  refine ⟨fun start s idle => ?_, fun s idle => ?_⟩
  · simp only [exec, execLcus, execLsta, takeRequest_branch idle]
    refine ⟨fun customer zero => ?_, fun code bad => ?_, fun customer nonzero => ?_, fun x nonzero => ?_⟩
    · simp [zero, refuse]
    · obtain zero | unknown := bad
      · cases recStateOf code <;> simp [zero, refuse]
      · simp [recStateOf_eq_none unknown, refuse]
    · simp only [nonzero, ok, receiptList, if_false]
      rw [receiptsFrom_eq s start.toNat (P := fun r => r.advice.map Advice.customer = some customer.toNat) (by simp)]
    · simp only [recStateOf_code, nonzero, ok, receiptList, if_false]
      rw [receiptsFrom_eq s start.toNat (P := fun r => r.state = x) (by simp)]
  · simp only [exec, execLpkt, execPkts, execNtot, takeRequest_branch idle]
    refine ⟨fun pocket start bad => ?_, fun p pocket start name inside => ?_, fun pocket bad => ?_, fun p pocket name => ?_, rfl⟩
    · obtain noPocket | past := bad
      · simp [pocketOf_eq_none noPocket, refuse]
      · cases pocketOf pocket <;> simp [past, refuse]
    · simp [pocketOf_of_toNat name, Nat.not_lt.mpr inside, ok]
    · simp [pocketOf_eq_none bad, refuse]
    · simp only [pocketOf_of_toNat name, ok, classOf_code, byte_of_toNat name, Carousel.freeUnits, Carousel.heldUnits]
      obtain hold | ⟨x, hold⟩ := Option.eq_none_or_eq_some s.pcc.hold <;> cases s.pcc.position <;>
        simp only [hold, codeOr]

end Sys2Proof.CustodyProofs
end

section
/-! PROOF. The end of the tag window: the drop's record, and the jam of a drop without a hold (R3, R5, R103, R110, R117). -/

namespace Sys2Proof.CustodyProofs

open Sys2Proof.Machine Sys2Proof.Safety

/-- The entry to JAMMED is the jammed drop of R110. -/
theorem jam_eq_jammedDrop (s : State) : s.jam = jammedDrop s := by
  have queue : (s.pcc.queue.filter fun r => r.source != .intake) = s.pcc.queue.filter fun q => q.source ≠ .intake :=
    List.filter_congr fun q _ => by by_cases e : q.source = .intake <;> simp [e]
  unfold jammedDrop
  rw [← queue]
  rfl

/-- What follows the opening of the record: WEIGH with its timer, or JAMMED without a hold (R103, R104, R117). -/
def windowEnded (s t : State) : State :=
  if s.pcc.hold.isSome then
    { t with intake := { s.intake with phase := .weigh, tagWindow := none, weighTimer := some 3000 } }
  else (jammedDrop { t with intake := { s.intake with tagWindow := none } }).serve

/-- A record opened or matched leaves the sequencer and the hold to what follows. -/
theorem afterWindow_eq {s t : State} (intake : t.intake = s.intake) (hold : t.pcc.hold = s.pcc.hold) :
    t.afterWindow = windowEnded s t := by
  unfold State.afterWindow windowEnded State.enterJammed
  simp only [jam_eq_jammedDrop, hold, State.setIntake, intake]
  rfl

/-- A new record in the place of its fresh receipt (R2, R3). -/
theorem create_eq_withNew {s : State} (hs : receiptsOrdered s) (make : Nat → Record)
    (receipt : ∀ n, (make n).receipt = n) :
    ∃ before rest, freshPlace s s.freshReceipt before rest ∧ s.create make = withNew s before rest (make s.freshReceipt) := by
  obtain ⟨⟨k, hk, held⟩, free, -⟩ := freshReceipt_spec hs
  obtain ⟨before, rest, e, inserted, low, high⟩ :=
    (rising_of_receiptsOrdered hs).insertRecord_split (r := make s.freshReceipt) (by simpa [receipt] using free)
  rw [receipt] at low high
  refine ⟨before, rest, ⟨e, low, high, k, hk, held⟩, ?_⟩
  have placed : s.create make = { s with cr := { (s.create make).cr with
      records := before ++ make s.freshReceipt :: rest } } := by
    rw [← inserted]
    rfl
  rw [placed, withNew, receipt]
  rfl

section Window

variable {s : State} (running : s.resetHeld = false) (phase : s.intake.phase = .identify)
  (window : s.intake.tagWindow.isSome = true)

include running phase window

theorem exec_tagWindowExpiry_of_some {t : State} (h : s.openRecord = some t) (intake : t.intake = s.intake)
    (hold : t.pcc.hold = s.pcc.hold) : exec .tagWindowExpiry s = .next (windowEnded s t) := by
  rw [← afterWindow_eq intake hold]
  simp only [exec, execTagWindowExpiry, whenRunning_running running, phase, window, h]
  rfl

theorem exec_tagWindowExpiry_of_none (h : s.openRecord = none) : exec .tagWindowExpiry s = .fault .noFreeSlot := by
  simp only [exec, execTagWindowExpiry, whenRunning_running running, phase, window, h]
  rfl

/-- A new record of the drop, where a slot is free; no slot free stops the model (R103, log 15). -/
theorem exec_tagWindowExpiry_of_dropped {tag : Option Tag} {claim : Bool} {cause : Option Cause}
    (h : s.openRecord = s.createDropped tag claim cause) :
    (s.cr.records.length < 384 → receiptsOrdered s → ∃ n before rest, freshPlace s n before rest ∧
      exec .tagWindowExpiry s = .next (windowEnded s (withNew s before rest
        { receipt := n, tag, claims := claim, state := .intake, location := .drawer, cause
          size := s.intake.readings.size }))) ∧
    (384 ≤ s.cr.records.length → exec .tagWindowExpiry s = .fault .noFreeSlot) := by
  have room : 1 ≤ s.freeSlots ↔ s.cr.records.length < 384 := by
    simp only [State.freeSlots, Config.slots]
    omega
  unfold State.createDropped at h
  refine ⟨fun free hs => ?_, fun full => ?_⟩
  · rw [if_pos (room.mpr free)] at h
    obtain ⟨before, rest, place, e⟩ :=
      create_eq_withNew hs (droppedRecord tag claim cause s.intake.readings.size) fun _ => rfl
    refine ⟨s.freshReceipt, before, rest, place, ?_⟩
    rw [exec_tagWindowExpiry_of_some running phase window h rfl rfl, e]
    rfl
  · rw [if_neg (room.not.mpr (Nat.not_lt.mpr full))] at h
    exact exec_tagWindowExpiry_of_none running phase window h

end Window

/-- Settles O40: the tags read and the tag index decide what `openRecord` does, and the window's end follows. -/
theorem identificationOpensARecord : Obligations.IdentificationOpensARecord := by
  intro s running
  refine ⟨fun closed => ?_, fun phase window => ⟨fun noTag => ?_, fun t first second => ?_, fun t first single =>
    ⟨fun free => ?_, fun r claim advised missing => ?_, fun r claim match_ => ?_⟩⟩⟩
  · have shut : ¬ (s.intake.phase = .identify ∧ s.intake.tagWindow.isSome = true) := by
      obtain phase | window := closed
      · exact fun h => phase h.1
      · simp [window]
    simp only [exec, execTagWindowExpiry, whenRunning_running running, if_neg shut]
  · refine exec_tagWindowExpiry_of_dropped running phase window ?_
    simp only [State.openRecord, noTag]
  · refine exec_tagWindowExpiry_of_dropped running phase window ?_
    simp only [State.openRecord, first, second]
  · refine exec_tagWindowExpiry_of_dropped running phase window ?_
    simp only [State.openRecord, first, single, claimant_of_unclaimed free]
  · refine exec_tagWindowExpiry_of_dropped running phase window ?_
    simp only [State.openRecord, first, single, claimant_of_claims claim]
    cases state : r.state with
    | advised => exact absurd state advised
    | missing => exact absurd state missing
    | intake | grace | held | staged | overdue => rfl
  · refine exec_tagWindowExpiry_of_some (t := s.update r.receipt fun x => x.matched s.intake.readings.size)
      running phase window ?_ rfl rfl
    simp only [State.openRecord, first, single, claimant_of_claims claim]
    obtain state | state := match_ <;> rw [state]

end Sys2Proof.CustodyProofs
end

section
/-! PROOF. A restart: what is kept nowhere, the register kept or lost, the jobs of the PENDING records, the flags raised and the
sequencer (R26, R27, R61, R116, R171, R183). -/

namespace Sys2Proof.CustodyProofs

open Sys2Proof.Machine Sys2Proof.Safety

/-! ## The first part of start-up -/

/-- What is kept neither in the retained store nor in the EEPROM has its value after restart (R116, R160, R171, R183). -/
structure ColdStart (straps : Straps) (pins : Levels) (u : State) : Prop where
  intake : u.intake = { phase := .closed }
  jobs : u.wau.queue = []
  working : u.wau.working = none
  drum : u.pcc.drum = .homing none
  position : u.pcc.position = none
  hold : u.pcc.hold = none
  requests : u.pcc.queue = []
  session : u.rc.session = .closed
  wndw : u.rc.wndw = false
  openPocket : u.rc.openPocket = none
  hatch : u.rc.hatch = .locked
  flags : u.ls.flags = Vector.replicate 16 {}
  clock : u.ls.clock = none
  branch : u.ls.branch = {}
  panel : u.ls.panel = {}
  saving : u.ss.saving = none
  straps : u.ss.straps = straps
  pins : u.pins = pins
  running : u.resetHeld = false

theorem coldStart_restartRestored (s : State) (straps : Straps) (pins : Levels) (n : Nat) (answers lost : Bool) :
    ColdStart straps pins (restartRestored s straps pins n answers lost) := by
  constructor <;> cases lost <;> rfl

theorem restarted_keeps (r : Record) (g : Nat) : (r.restarted g).receipt = r.receipt ∧ (r.restarted g).tag = r.tag ∧
    (r.restarted g).state = r.state ∧ (r.restarted g).verdict = r.verdict := by
  unfold Record.restarted
  split <;> simp_all

theorem receiptsOrdered_restartRestored {s : State} (hs : receiptsOrdered s) (straps : Straps) (pins : Levels) (n : Nat)
    (answers : Bool) : receiptsOrdered (restartRestored s straps pins n answers false) :=
  receiptsOrdered_map (f := fun r => r.restarted (restartLoaded s straps pins n answers).cr.graceInterval)
    (fun r _ => (restarted_keeps r _).1) rfl rfl hs

/-- A pocket's totals are kept with the store, its capacity being a setting (R26, R71). -/
theorem restartRestored_pockets (s : State) (straps : Straps) (pins : Levels) (n : Nat) (answers : Bool) (p : Fin 21) :
    let x := (restartRestored s straps pins n answers false).pcc.pockets[p]
    x.used = s.pcc.pockets[p].used ∧ x.bags = s.pcc.pockets[p].bags ∧ x.declared = s.pcc.pockets[p].declared ∧
      x.mass = s.pcc.pockets[p].mass := by
  have holdings := congrFun (congrArg Ledger.holdings (ledger_restartRestored s straps pins n answers)) p
  obtain ⟨-, used, bags, declared, mass⟩ := Pocket.mk.inj holdings
  exact ⟨used, bags, declared, mass⟩

/-! ## The jobs of PENDING records -/

/-- The job of a record (R53). -/
def jobOf (r : Record) : Job := { receipt := r.receipt, tag := r.tag }

theorem jobRecord_of_mem {s : State} (hs : receiptsOrdered s) {r : Record} (hr : r ∈ s.cr.records)
    (custody : r.state.inCustody = true) : s.jobRecord (jobOf r) = some r := by
  unfold State.jobRecord jobOf
  rw [record_of_mem hs hr]
  simp [Option.filter, custody]

/-- The WAU works exactly while a job stands. -/
def worksOnQueue (s : State) : Prop := s.wau.working.isSome = true ↔ s.wau.queue ≠ []

/-- A job for a living record at the tail: the WAU works on, or starts it at the head (R56). -/
theorem startWau_of_living {s : State} {q : List Job} {j : Job} {r : Record} (queue : s.wau.queue = q ++ [j])
    (living : s.jobRecord j = some r) (works : s.wau.working.isSome = true ↔ q ≠ []) :
    s.startWau.wau.queue = q ++ [j] ∧ s.startWau.wau.working.isSome = true := by
  unfold State.startWau
  split
  next working => exact ⟨queue, working⟩
  next idle =>
    obtain rfl : q = [] := by simpa [idle] using works
    simp [queue, State.startHead, living]

/-- The state with a record's job at the tail of the queue, before the WAU looks at it. -/
def withJob (s : State) (r : Record) : State :=
  { s.update r.receipt (fun r => { r with verdict := some .pending }) with
    wau := { s.wau with queue := s.wau.queue ++ [jobOf r] } }

theorem queueJob_eq_startWau (s : State) (r : Record) : s.queueJob r.receipt r.tag = (withJob s r).startWau := rfl

/-- A job queued for a living record goes to the tail, and the WAU works (R53, R56). -/
theorem queueJob_wau {s : State} (hs : receiptsOrdered s) {r : Record} (hr : r ∈ s.cr.records)
    (pending : r.verdict = some .pending) (custody : r.state.inCustody = true) (works : worksOnQueue s) :
    (s.queueJob r.receipt r.tag).wau.queue = s.wau.queue ++ [jobOf r] ∧ worksOnQueue (s.queueJob r.receipt r.tag) := by
  have kept : (withJob s r).cr = s.cr :=
    (State.startWau_cr (withJob s r)).symm.trans (queueJob_cr_of_pending hs hr pending)
  have living : (withJob s r).jobRecord (jobOf r) = some r := by
    rw [← jobRecord_of_mem hs hr custody]
    unfold State.jobRecord State.record
    rw [kept]
  rw [queueJob_eq_startWau]
  obtain ⟨queue, working⟩ := startWau_of_living (s := withJob s r) rfl living works
  exact ⟨queue, by simp [worksOnQueue, queue, working]⟩

theorem foldl_queueJob_wau {s : State} (hs : receiptsOrdered s) (l : List Record)
    (hl : ∀ r ∈ l, r ∈ s.cr.records ∧ r.verdict = some .pending ∧ r.state.inCustody = true) (works : worksOnQueue s) :
    let t := l.foldl (fun s r => s.queueJob r.receipt r.tag) s
    t.wau.queue = s.wau.queue ++ l.map jobOf ∧ worksOnQueue t := by
  induction l generalizing s with
  | nil => simpa using works
  | cons r rest ih =>
    obtain ⟨hr, pending, custody⟩ := hl r (by simp)
    have kept := queueJob_cr_of_pending hs hr pending
    obtain ⟨queue, works⟩ := queueJob_wau hs hr pending custody works
    obtain ⟨queue', works'⟩ := ih (s := s.queueJob r.receipt r.tag)
      (by unfold receiptsOrdered slotsBounded; rwa [kept])
      (by rw [kept]; exact fun x hx => hl x (List.mem_cons_of_mem r hx)) works
    exact ⟨by rw [List.foldl_cons, queue', queue]; simp, works'⟩

/-- Every PENDING record has its job again, in ascending receipt order (R61). -/
theorem refill_wau {s : State} (hs : receiptsOrdered s) (empty : s.wau.queue = []) (idle : s.wau.working = none)
    (living : ∀ r ∈ s.cr.records, r.verdict = some .pending → r.state.inCustody = true) :
    s.refill.wau.queue = (s.cr.records.filter fun r => r.verdict == some .pending).map jobOf ∧ worksOnQueue s.refill := by
  obtain ⟨queue, works⟩ := foldl_queueJob_wau hs (s.cr.records.filter fun r => r.verdict == some .pending)
    (fun r hr => by
      obtain ⟨hmem, pending⟩ := List.mem_filter.mp hr
      have pending : r.verdict = some .pending := by simpa using pending
      exact ⟨hmem, pending, living r hmem pending⟩)
    (by simp [worksOnQueue, empty, idle])
  rw [empty, List.nil_append] at queue
  exact ⟨queue, works⟩

/-! ## The flags of start-up -/

theorem raiseWhen_flags (s : State) (cause : Bool) (f : StatusFlag) (i : Fin 16) :
    (s.raiseWhen cause f).ls.flags[i] =
      if cause = true ∧ f.place = i then s.ls.flags[i].raise else s.ls.flags[i] := by
  cases cause with
  | false => simp [State.raiseWhen]
  | true =>
    by_cases e : f.place = i
    · subst e
      simp [State.raiseWhen, State.raise, State.withFlags]
    · simp [State.raiseWhen, State.raise, State.withFlags, e, Vector.getElem_set_ne, Fin.val_ne_of_ne e]

/-- At start-up STORE_LOST and JAM are raised once where their causes stand, and CHUTE_SHUT is clear (R171, R183). -/
theorem startUpFlags_flags {s : State} (clear : s.ls.flags = Vector.replicate 16 {}) :
    (s.cr.lossPending = true → s.startUpFlags.ls.flags[StatusFlag.storeLost.place] = { set := true, count := 1 }) ∧
      (s.intakeRecord.isSome = true → s.startUpFlags.ls.flags[StatusFlag.jam.place] = { set := true, count := 1 }) ∧
      s.startUpFlags.ls.flags[StatusFlag.chuteShut.place] = {} := by
  have cleared : ∀ i : Fin 16, s.ls.flags[i] = {} := by simp [clear]
  simp only [State.startUpFlags, raiseWhen_flags, cleared]
  refine ⟨fun lost => ?_, fun jam => ?_, ?_⟩
  · simp [StatusFlag.place, FlagCell.raise, lost]
  · simp [StatusFlag.place, FlagCell.raise, jam]
  · simp [StatusFlag.place]

/-! ## The second part of start-up -/

theorem serve_of_empty {s : State} (h : s.pcc.queue = []) : s.serve = s := by
  simp [State.serve, nextSource, h]

/-- The second part begins the search, or ends it at once over the reported mark (R93, R183, log 8). -/
theorem secondPart_cases {s : State} (requests : s.pcc.queue = []) (drum : s.pcc.drum = .homing .none) :
    (∃ d, s.secondPart = s.setPcc { s.pcc with drum := .homing d }) ∨
      (s.pins.hatchShut = true ∧ s.pins.refMark = true ∧ s.secondPart = (s.setPcc { s.pcc with
        drum := .idle, position := some 0, lastDir := some .forward }).afterDrumChange) := by
  unfold State.secondPart State.interlockSecured State.beginSearch
  rw [drum]
  split
  next shut =>
    dsimp only
    split
    next mark => exact .inr ⟨shut, mark, serve_of_empty (by simp [requests])⟩
    next => exact .inl ⟨_, rfl⟩
  next => exact .inl ⟨.none, by rw [← drum]; rfl⟩

theorem testChute_flags (s : State) {i : Fin 16} (h : i ≠ StatusFlag.chuteShut.place) :
    s.testChute.ls.flags[i] = s.ls.flags[i] := by
  obtain ⟨-, e⟩ | ⟨-, -, e⟩ | ⟨-, -, e⟩ := testChute_cases s <;> rw [e]
  · rfl
  · rfl
  · rw [raiseWhen_flags, if_neg fun raised => h raised.2.symm]
    rfl

theorem afterDrumChange_flags (s : State) {i : Fin 16} (h : i ≠ StatusFlag.chuteShut.place) :
    s.afterDrumChange.ls.flags[i] = s.ls.flags[i] := by
  unfold State.afterDrumChange
  split
  · unfold State.takeUpDrop
    dsimp only
    split
    · simp [State.enterLoading]
    split
    · simp [State.enterIdentify]
    · exact testChute_flags _ h
  · obtain e | e := retest_cases s <;> rw [e]
    exact testChute_flags _ h

/-- What the second part leaves as it is. -/
structure StartKept (s t : State) : Prop where
  cr : t.cr = s.cr
  wau : t.wau = s.wau
  rc : t.rc = s.rc
  ss : t.ss = s.ss
  pins : t.pins = s.pins
  running : t.resetHeld = s.resetHeld
  requests : t.pcc.queue = s.pcc.queue
  pockets : t.pcc.pockets = s.pcc.pockets
  branch : t.ls.branch = s.ls.branch
  panel : t.ls.panel = s.ls.panel
  clock : t.ls.clock = s.ls.clock
  flags : ∀ i : Fin 16, i ≠ StatusFlag.chuteShut.place → t.ls.flags[i] = s.ls.flags[i]

theorem startKept_secondPart {s : State} (requests : s.pcc.queue = []) (drum : s.pcc.drum = .homing .none) :
    StartKept s s.secondPart := by
  obtain ⟨d, e⟩ | ⟨-, -, e⟩ := secondPart_cases requests drum <;> rw [e]
  · constructor <;> intros <;> rfl
  · constructor
    case flags => exact fun i h => (afterDrumChange_flags _ h).trans rfl
    all_goals simp

/-- The drop of a JAMMED sequencer is not looked at again (R98, R116). -/
theorem secondPart_jammed {s : State} (requests : s.pcc.queue = []) (drum : s.pcc.drum = .homing .none)
    (jammed : s.intake.phase = .jammed) (off : s.intake.takeUp = false) : s.secondPart.intake.phase = .jammed := by
  obtain ⟨d, e⟩ | ⟨-, -, e⟩ := secondPart_cases requests drum <;> rw [e]
  · exact jammed
  · simp [State.afterDrumChange, State.retest, off, jammed]

end Sys2Proof.CustodyProofs
end

section
/-! PROOF. A restart keeps the register, or empties it with the store lost (R26, R27, R61, R116, R183). -/

namespace Sys2Proof.CustodyProofs

open Sys2Proof.Machine Sys2Proof.Safety

/-- The module after the fifth step of start-up, with the sequencer's first phase (R116, R171). -/
def restartStarted (u : State) : State := u.refill.startUpFlags.startIntake

theorem exec_restart (s : State) (straps : Straps) (pins : Levels) (lost answers : Bool) (n : Nat) :
    exec (.restart straps pins lost answers n) s =
      .next (restartStarted (restartRestored s straps pins n answers (lost || !s.cr.storeValid))).secondPart :=
  execRestart_eq s straps pins lost answers n

section Started

variable {straps : Straps} {pins : Levels} {u : State}

theorem restartStarted_frame (u : State) :
    (restartStarted u).pcc = u.pcc ∧ (restartStarted u).rc = u.rc ∧ (restartStarted u).ss = u.ss ∧
      (restartStarted u).pins = u.pins ∧ (restartStarted u).resetHeld = u.resetHeld ∧
      (restartStarted u).wau = u.refill.wau ∧ (restartStarted u).cr = u.refill.cr := by
  obtain ⟨pcc, rc, -, -, ss, levels, running⟩ := refill_frame u
  simp [restartStarted, State.startIntake, State.startUpFlags, pcc, rc, ss, levels, running]

theorem restartStarted_ls (u : State) : (restartStarted u).ls.branch = u.ls.branch ∧
    (restartStarted u).ls.panel = u.ls.panel ∧ (restartStarted u).ls.clock = u.ls.clock ∧
    (restartStarted u).ls = u.refill.startUpFlags.ls := by
  obtain ⟨-, -, -, ls, -⟩ := refill_frame u
  simp [restartStarted, State.startIntake, State.startUpFlags, ls]

/-- What the second part of start-up leaves of the first. -/
theorem startKept_restart (cold : ColdStart straps pins u) :
    StartKept (restartStarted u) (restartStarted u).secondPart := by
  obtain ⟨pcc, -⟩ := restartStarted_frame u
  exact startKept_secondPart (by rw [pcc, cold.requests]) (by rw [pcc, cold.drum])

theorem refill_flags (cold : ColdStart straps pins u) : u.refill.ls.flags = Vector.replicate 16 {} := by
  obtain ⟨-, -, -, ls, -⟩ := refill_frame u
  rw [ls, cold.flags]

/-- STORE_LOST stands set once when the loss is pending (R27, R183). -/
theorem restart_storeLost (cold : ColdStart straps pins u) (pending : u.refill.cr.lossPending = true) :
    (restartStarted u).secondPart.ls.flags[StatusFlag.storeLost.place] = { set := true, count := 1 } := by
  obtain ⟨-, -, -, ls⟩ := restartStarted_ls u
  rw [(startKept_restart cold).flags _ (by decide), ls]
  exact (startUpFlags_flags (refill_flags cold)).1 pending

theorem restartStarted_intake (ordered : receiptsOrdered u) (cold : ColdStart straps pins u) :
    (restartStarted u).intake = {
      phase := if u.intakeRecord.isSome then .jammed else if u.cr.night = .day then .closed else .shut
      takeUp := u.intakeRecord.isNone } := by
  obtain ⟨-, -, intake, -⟩ := refill_frame u
  simp [restartStarted, State.startIntake, State.startUpFlags, State.intakeRecord, refill_cr ordered, intake, cold.intake]

/-- With a record in INTAKE the sequencer is in JAMMED and JAM is raised (R116, R171). -/
theorem restart_jam (ordered : receiptsOrdered u) (cold : ColdStart straps pins u) (drop : u.intakeRecord.isSome = true) :
    (restartStarted u).secondPart.intake.phase = .jammed ∧
      (restartStarted u).secondPart.ls.flags[StatusFlag.jam.place] = { set := true, count := 1 } := by
  obtain ⟨pcc, -⟩ := restartStarted_frame u
  obtain ⟨-, -, -, ls⟩ := restartStarted_ls u
  have intake := restartStarted_intake ordered cold
  rw [drop, ← Option.not_isSome, drop] at intake
  have refilled : u.refill.intakeRecord.isSome = true := by rwa [State.intakeRecord, refill_cr ordered]
  constructor
  · exact secondPart_jammed (by rw [pcc, cold.requests]) (by rw [pcc, cold.drum]) (by rw [intake]; rfl) (by rw [intake]; rfl)
  · rw [(startKept_restart cold).flags _ (by decide), ls]
    exact (startUpFlags_flags (refill_flags cold)).2.1 refilled

/-- Unless the hatch reads shut over the reported mark, the drum is left in HOMING and nothing is tested (R93, R116). -/
theorem restart_homing (cold : ColdStart straps pins u) (away : pins.hatchShut = false ∨ pins.refMark = false) :
    ∃ d, (restartStarted u).secondPart = (restartStarted u).setPcc { u.pcc with drum := .homing d } := by
  obtain ⟨pcc, -, -, levels, -⟩ := restartStarted_frame u
  obtain ⟨d, e⟩ | ⟨shut, mark, -⟩ :=
    secondPart_cases (s := restartStarted u) (by rw [pcc, cold.requests]) (by rw [pcc, cold.drum])
  · exact ⟨d, by rw [e, pcc]⟩
  · rw [levels, cold.pins] at shut mark
    simp [shut, mark] at away

theorem restart_chuteShut (cold : ColdStart straps pins u) :
    (restartStarted u).ls.flags[StatusFlag.chuteShut.place] = { set := false, count := 0 } := by
  obtain ⟨-, -, -, ls⟩ := restartStarted_ls u
  rw [ls]
  exact (startUpFlags_flags (refill_flags cold)).2.2

end Started

/-! ## The store valid -/

section Valid

variable {straps : Straps} {pins : Levels} {answers : Bool} {n : Nat} {s : State}

/-- What a restart keeps of the register, the grace timers started anew (R26). -/
theorem restartRestored_cr : (restartRestored s straps pins n answers false).cr = { s.cr with
    graceInterval := (restartRestored s straps pins n answers false).cr.graceInterval
    records := s.cr.records.map fun r =>
      r.restarted (restartRestored s straps pins n answers false).cr.graceInterval } := rfl

/-- A test that a restart does not touch picks the same records (R26). -/
theorem filter_map_restarted {α : Type} (l : List Record) (g : Nat) (test : Record → Bool) (f : Record → α)
    (htest : ∀ r, test (r.restarted g) = test r) (hf : ∀ r, f (r.restarted g) = f r) :
    ((l.map fun r => r.restarted g).filter test).map f = (l.filter test).map f := by
  rw [List.filter_map, List.map_map]
  exact congrArg₂ _ (funext hf) (List.filter_congr fun r _ => htest r)

theorem exists_intake_restarted : (restartRestored s straps pins n answers false).intakeRecord.isSome = true ↔
    ∃ r ∈ s.cr.records, r.state = .intake := by
  rw [State.intakeRecord, restartRestored_cr]
  simp [restarted_keeps]

theorem restarted_eq (r : Record) (g : Nat) : r.restarted g = match r.state with
    | .intake => { r with interrupted := true, jammed := true }
    | .grace => { r with grace := some g }
    | _ => r := by
  unfold Record.restarted
  cases r.state <;> rfl

/-- A handover timer at the full interval for each STAGED record (R26, R153). -/
theorem restartRestored_handovers : (restartRestored s straps pins n answers false).rc.handoverTimers =
    (s.cr.records.filter fun r => r.state = .staged).map
      fun r => (r.receipt, (restartRestored s straps pins n answers false).rc.handoverInterval) := by
  have staged : ∀ r : Record, (r.state == .staged) = decide (r.state = .staged) := fun r => by
    by_cases e : r.state = .staged <;> simp [e]
  simp only [← staged]
  exact filter_map_restarted s.cr.records _ (fun r => r.state == .staged) _ (fun r => by simp only [restarted_keeps])
    fun r => by simp only [restarted_keeps]

/-- A job for each PENDING record, in ascending receipt order (R61). -/
theorem restartRestored_jobs (hs : receiptsOrdered s)
    (living : ∀ r ∈ s.cr.records, r.verdict = some .pending → r.state ≠ .advised ∧ r.state ≠ .missing) :
    (restartRestored s straps pins n answers false).refill.wau.queue =
        (s.cr.records.filter fun r => r.verdict = some .pending).map jobOf ∧
      worksOnQueue (restartRestored s straps pins n answers false).refill := by
  have cold := coldStart_restartRestored s straps pins n answers false
  obtain ⟨queue, works⟩ := refill_wau (receiptsOrdered_restartRestored hs straps pins n answers)
    cold.jobs cold.working fun r hr pending => by
      obtain ⟨x, hx, rfl⟩ := List.mem_map.mp hr
      simp only [restarted_keeps] at pending ⊢
      exact inCustody_iff.mpr (living x hx pending)
  refine ⟨queue.trans ?_, works⟩
  have tests : ∀ r : Record, (r.verdict == some .pending) = decide (r.verdict = some .pending) := fun r => by
    by_cases e : r.verdict = some .pending <;> simp [e]
  simp only [← tests]
  exact filter_map_restarted s.cr.records _ (fun r => r.verdict == some .pending) jobOf
    (fun r => by simp only [restarted_keeps]) fun r => by simp only [jobOf, restarted_keeps]

end Valid

/-- Settles O51: the register of a store loss, or the one kept with its jobs, flags and sequencer. -/
theorem restartKeepsOrEmptiesTheRegister : Obligations.RestartKeepsOrEmptiesTheRegister := by
  refine ⟨fun straps pins lost answers n s gone => ?_, fun straps pins answers n s hs valid living => ?_⟩
  · have invalid : (lost || !s.cr.storeValid) = true := by simpa using gone
    refine ⟨_, exec_restart .., ?_⟩
    rw [invalid]
    have cold := coldStart_restartRestored s straps pins n answers true
    have empty : (restartRestored s straps pins n answers true).refill = restartRestored s straps pins n answers true := rfl
    have kept := startKept_restart cold
    obtain ⟨pcc, rc, ss, levels, running, wau, cr⟩ := restartStarted_frame (restartRestored s straps pins n answers true)
    have flag := restart_storeLost cold rfl
    rw [kept.cr, kept.rc, kept.wau, kept.ss, kept.pins, kept.running, kept.pockets, pcc, rc, ss, levels, running, wau, cr,
      empty]
    refine ⟨rfl, rfl, rfl, fun p => ?_, rfl, rfl, rfl, rfl, rfl, cold.jobs, cold.working, flag, cold.straps, cold.pins,
      cold.running, fun p => ?_⟩
    · simp [restartRestored, State.restore, State.restartHandovers, Register.lost]
    · simp [restartRestored, State.restore, State.restartHandovers]
  · refine ⟨_, exec_restart .., ?_⟩
    rw [valid, show (false || !true) = false from rfl]
    have cold := coldStart_restartRestored s straps pins n answers false
    have ordered := receiptsOrdered_restartRestored hs straps pins n answers
    have pockets := restartRestored_pockets s straps pins n answers
    have register := restartRestored_cr (s := s) (straps := straps) (pins := pins) (n := n) (answers := answers)
    have jam := exists_intake_restarted (s := s) (straps := straps) (pins := pins) (n := n) (answers := answers)
    have handovers := restartRestored_handovers (s := s) (straps := straps) (pins := pins) (n := n) (answers := answers)
    have jobs := restartRestored_jobs (straps := straps) (pins := pins) (n := n) (answers := answers) hs living
    generalize restartRestored s straps pins n answers false = u at *
    obtain ⟨pcc, rc, ss, -, -, wau, cr⟩ := restartStarted_frame u
    obtain ⟨branch, panel, clock, -⟩ := restartStarted_ls u
    have kept := startKept_restart cold
    have intake := restartStarted_intake ordered cold
    rw [kept.cr, kept.rc, kept.wau, kept.ss, kept.requests, kept.pockets, kept.branch, kept.panel, kept.clock,
      pcc, rc, ss, wau, cr, branch, panel, clock, refill_cr ordered]
    refine ⟨?_, handovers, jobs.1, jobs.2, fun drop => restart_jam ordered cold (jam.mpr drop), cold.session, cold.wndw,
      cold.openPocket, cold.hatch, cold.clock, cold.branch, cold.panel, cold.saving, cold.requests, fun pending => ?_,
      fun away => ?_, pockets⟩
    · refine register.trans (congrArg (fun l => { s.cr with graceInterval := u.cr.graceInterval, records := l }) ?_)
      exact List.map_congr_left fun r _ => restarted_eq r _
    · refine restart_storeLost cold ?_
      rw [refill_cr ordered, register]
      exact pending
    · obtain ⟨d, e⟩ := restart_homing cold away
      rw [e]
      refine ⟨cold.position, ⟨d, rfl⟩, cold.hold, restart_chuteShut cold, fun free => ?_, fun drop => ?_⟩
      · have none : u.intakeRecord = none := by
          rw [← Option.not_isSome_iff_eq_none, jam]
          exact fun ⟨r, hr, e⟩ => free r hr e
        have night : u.cr.night = s.cr.night := by rw [register]
        exact intake.trans (by simp [none, night])
      · exact intake.trans (by rw [jam.mpr drop, ← Option.not_isSome, jam.mpr drop]; rfl)

end Sys2Proof.CustodyProofs
end

section
/-! PROOF. The operands of RNGW, read as the entry that they make, and the requests that write the routing table (R31 to
R35). -/

namespace Sys2Proof.SettingsProofs

open Sys2Proof.Machine Sys2Proof.Safety Sys2Proof.CustodyProofs

/-! ## Operands -/

theorem allSome_eq_some_iff {α : Type} {l : List (Option α)} {xs : List α} : allSome l = some xs ↔ l = xs.map some := by
  induction l generalizing xs with
  | nil => cases xs <;> simp [allSome]
  | cons x l ih =>
    cases x with
    | none => cases xs <;> simp [allSome]
    | some x => cases xs <;> simp [allSome, ih, and_comm]

/-- A yes/no field carries a flag as the byte that is sent for it (R165). -/
theorem flagOf_eq_some_iff {b : Byte} {x : Bool} : flagOf b = some x ↔ b = yesNo x := by
  unfold flagOf
  split
  next zero => cases x <;> simp [zero, yesNo]
  next nonzero =>
    split
    next one => cases x <;> simp [one, yesNo]
    next other => cases x <;> simp [nonzero, other, yesNo]

theorem yesNo_toNat_le (x : Bool) : (yesNo x).toNat ≤ 1 := by cases x <;> simp [yesNo]

/-- A byte of at most 1 is the yes/no field of its test against 1 (R165). -/
theorem eq_yesNo_of_le {b : Byte} (h : b.toNat ≤ 1) : b = yesNo (b == 1#8) := by
  obtain zero | one : b.toNat = 0 ∨ b.toNat = 1 := by omega
  · obtain rfl : b = 0#8 := BitVec.eq_of_toNat_eq zero
    rfl
  · obtain rfl : b = 1#8 := BitVec.eq_of_toNat_eq one
    rfl

theorem entryOf_eq_some_iff {b : Byte} {n : Fin 8} : entryOf b = some n ↔ b.toNat = n.val := by
  unfold entryOf
  split
  · simp [Fin.ext_iff]
  · simp only [reduceCtorEq, false_iff]
    omega

theorem setOf_eq_some_iff {b : Byte} {n : Fin 4} : setOf b = some n ↔ b.toNat = n.val := by
  unfold Machine.setOf
  split
  · simp [Fin.ext_iff]
  · simp only [reduceCtorEq, false_iff]
    omega

theorem storagePocketOf_eq_some_iff {b : Byte} {p : Fin 21} : storagePocketOf b = some p ↔ b.toNat = p.val ∧ p ≠ 0 := by
  unfold storagePocketOf pocketOf
  split
  · simp only [Option.filter_eq_some_iff, Option.some.injEq, Fin.ext_iff, ne_eq, decide_not, Bool.not_eq_eq_eq_not,
      Bool.not_true, decide_eq_false_iff_not]
  · simp only [Option.filter_none, reduceCtorEq, false_iff]
    omega

/-- A group that RNGW takes: 1 to 8 distinct storage pockets in the order of their numbers (R32). -/
theorem groupOf_eq_some_iff {g : List Byte} {l : List (Fin 21)} :
    groupOf g = some l ↔ 1 ≤ l.length ∧ l.length ≤ 8 ∧ g.map storagePocketOf = l.map some ∧ l.Nodup := by
  unfold groupOf
  split
  next bounds =>
    simp only [Option.filter_eq_some_iff, allSome_eq_some_iff, decide_eq_true_eq]
    refine ⟨fun ⟨pockets, distinct⟩ => ?_, fun ⟨_, _, pockets, distinct⟩ => ⟨pockets, distinct⟩⟩
    have length := congrArg List.length pockets
    simp only [List.length_map] at length
    exact ⟨length ▸ bounds.1, length ▸ bounds.2, pockets, distinct⟩
  next bounds =>
    refine ⟨nofun, fun ⟨low, high, pockets, _⟩ => absurd ?_ bounds⟩
    have length := congrArg List.length pockets
    simp only [List.length_map] at length
    omega

/-- The numbers of the pockets of a group are the bytes that name them. -/
theorem bytes_of_pockets {g : List Byte} {l : List (Fin 21)} (h : g.map storagePocketOf = l.map some) :
    l.map (fun p => byte p.val) = g := by
  induction l generalizing g with
  | nil => simpa using h.symm
  | cons p l ih =>
    cases g with
    | nil => simp at h
    | cons b g =>
      simp only [List.map_cons, List.cons.injEq] at h ⊢
      exact ⟨byte_of_toNat (storagePocketOf_eq_some_iff.mp h.1).1, ih h.2⟩

theorem ne_zero_of_pockets {g : List Byte} {l : List (Fin 21)} (h : g.map storagePocketOf = l.map some) {p : Fin 21}
    (hp : p ∈ l) : p ≠ 0 := by
  have named : some p ∈ g.map storagePocketOf := h ▸ List.mem_map_of_mem hp
  obtain ⟨b, -, e⟩ := List.mem_map.mp named
  exact (storagePocketOf_eq_some_iff.mp e).2

/-- The entry that RNGW stores has the fields that are carried, but the number of leading bits, which is
clamped (R32, R33). -/
theorem rangeEntryOf_eq_some_iff {f : RangeField} {e : RangeEntry} :
    rangeEntryOf f = some e ↔ f.enabled = yesNo e.enabled ∧ f.closed = yesNo e.closed ∧ f.audit = yesNo e.audit ∧
      f.tolSet.toNat = e.tolSet.val ∧ groupOf f.group = some e.group ∧ f.cap.toNat = e.cap ∧ e.cap ≤ 15 ∧
      e.base = f.base ∧ e.prefixLength = clamp 8 32 f.prefixLength.toNat := by
  unfold rangeEntryOf
  simp only [Option.bind_eq_bind, Option.bind_eq_some_iff, flagOf_eq_some_iff, setOf_eq_some_iff]
  constructor
  · rintro ⟨enabled, he, closed, hc, audit, ha, tolSet, ht, group, hg, stored⟩
    split at stored
    next cap =>
      obtain rfl := Option.some.inj stored
      exact ⟨he, hc, ha, ht, hg, rfl, cap, rfl, rfl⟩
    next => cases stored
  · rintro ⟨he, hc, ha, ht, hg, cap, bound, base, length⟩
    refine ⟨_, he, _, hc, _, ha, _, ht, _, hg, ?_⟩
    rw [if_pos (cap ▸ bound), ← base, ← length, cap]

/-! ## RNGW -/

/-- What the fields of an RNGW are refused for (R32). -/
def badRange (f : RangeField) : Prop :=
  1 < f.enabled.toNat ∨ 1 < f.closed.toNat ∨ 1 < f.audit.toNat ∨ 3 < f.tolSet.toNat ∨
    15 < f.cap.toNat ∨ f.group.length = 0 ∨ 8 < f.group.length ∨ (∃ p ∈ f.group, p.toNat = 0 ∨ 20 < p.toNat) ∨
    ¬ f.group.Nodup

/-- The number of leading bits that is stored (R33). -/
def storedLength (n : Nat) : Nat := if n < 8 then 8 else if 32 < n then 32 else n

theorem clamp_eq_storedLength (n : Nat) : clamp 8 32 n = storedLength n := by
  unfold clamp storedLength
  (repeat' split) <;> omega

/-- The entry that is stored (R33). -/
def storedRange (f : RangeField) : RangeEntry where
  enabled := f.enabled == 1#8
  base := f.base
  prefixLength := storedLength f.prefixLength.toNat
  closed := f.closed == 1#8
  audit := f.audit == 1#8
  group := f.group.map fun p => Fin.ofNat 21 p.toNat
  tolSet := Fin.ofNat 4 f.tolSet.toNat
  cap := f.cap.toNat

/-- A list of pocket bytes in range, read one by one. -/
theorem map_storagePocketOf {g : List Byte} (h : ∀ p ∈ g, ¬ (p.toNat = 0 ∨ 20 < p.toNat)) :
    g.map storagePocketOf = (g.map fun p => Fin.ofNat 21 p.toNat).map some := by
  rw [List.map_map]
  refine List.map_congr_left fun b hb => storagePocketOf_eq_some_iff.mpr ?_
  have bounds := h b hb
  have number : (Fin.ofNat 21 b.toNat).val = b.toNat := Nat.mod_eq_of_lt (by omega)
  exact ⟨number.symm, fun zero => bounds (.inl (number.symm.trans (congrArg Fin.val zero)))⟩

theorem nodup_pockets {g : List Byte} {l : List (Fin 21)} (h : g.map storagePocketOf = l.map some) :
    l.Nodup ↔ g.Nodup := by
  refine ⟨fun distinct => ?_, fun distinct => ?_⟩
  · exact List.Nodup.of_map storagePocketOf (h ▸ distinct.map (Option.some_injective _))
  · rw [← bytes_of_pockets h] at distinct
    exact distinct.of_map _

theorem rangeEntryOf_of_good {f : RangeField} (good : ¬ badRange f) : rangeEntryOf f = some (storedRange f) := by
  simp only [badRange, not_or, Nat.not_lt, not_exists, not_and, not_not] at good
  obtain ⟨enabled, closed, audit, tolSet, cap, some_, eight, inside, distinct⟩ := good
  have pockets := map_storagePocketOf (g := f.group) fun p hp => by
    have := inside p hp
    omega
  refine rangeEntryOf_eq_some_iff.mpr ⟨eq_yesNo_of_le enabled, eq_yesNo_of_le closed, eq_yesNo_of_le audit,
    (Nat.mod_eq_of_lt (by omega)).symm, groupOf_eq_some_iff.mpr ⟨?_, ?_, pockets, (nodup_pockets pockets).mpr distinct⟩,
    rfl, cap, rfl, (clamp_eq_storedLength _).symm⟩
  · simp only [storedRange, List.length_map]
    omega
  · simpa [storedRange] using eight

theorem rangeEntryOf_of_bad {f : RangeField} (bad : badRange f) : rangeEntryOf f = none := by
  refine Option.eq_none_iff_forall_ne_some.mpr fun e stored => ?_
  obtain ⟨enabled, closed, audit, tolSet, group, cap, bound, -, -⟩ := rangeEntryOf_eq_some_iff.mp stored
  obtain ⟨low, high, pockets, distinct⟩ := groupOf_eq_some_iff.mp group
  have length := congrArg List.length pockets
  simp only [List.length_map] at length
  have named : ∀ b ∈ f.group, ¬ (b.toNat = 0 ∨ 20 < b.toNat) := fun b hb => by
    have mem : storagePocketOf b ∈ e.group.map some := pockets ▸ List.mem_map_of_mem hb
    obtain ⟨p, -, hp⟩ := List.mem_map.mp mem
    obtain ⟨number, nonzero⟩ := storagePocketOf_eq_some_iff.mp hp.symm
    have := Fin.val_ne_of_ne nonzero
    have := p.isLt
    simp only [Fin.val_zero] at *
    omega
  unfold badRange at bad
  rw [enabled, closed, audit, tolSet, cap] at bad
  have := yesNo_toNat_le e.enabled
  have := yesNo_toNat_le e.closed
  have := yesNo_toNat_le e.audit
  have := e.tolSet.isLt
  obtain bad | bad | bad | bad | bad | bad | bad | ⟨b, hb, out⟩ | bad := bad
  · omega
  · omega
  · omega
  · omega
  · omega
  · omega
  · omega
  · exact named b hb out
  · exact bad ((nodup_pockets pockets).mp distinct)

/-- The bytes of a stored entry are those carried, with the number of leading bits as stored (R33,
R168). -/
theorem bytes_of_rangeEntryOf {f : RangeField} {e : RangeEntry} (h : rangeEntryOf f = some e) :
    e.bytes = f.enabled :: (be 4 f.base.toNat ++ [byte e.prefixLength, f.closed, f.audit, f.tolSet, f.cap,
      byte f.group.length] ++ f.group) := by
  obtain ⟨enabled, closed, audit, tolSet, group, cap, -, base, -⟩ := rangeEntryOf_eq_some_iff.mp h
  obtain ⟨-, -, pockets, -⟩ := groupOf_eq_some_iff.mp group
  have length := congrArg List.length pockets
  simp only [List.length_map] at length
  rw [RangeEntry.bytes, bytes_of_pockets pockets, ← enabled, ← closed, ← audit, byte_of_toNat tolSet, byte_of_toNat cap,
    base, length]

/-- A request that writes a setting, with no save under way (R181). -/
theorem writeSetting_free {s : State} (idle : branchIdle s) (free : s.ss.saving = none) (r : ReqName)
    (owner : State → State × Answer) :
    writeSetting s r.code owner = .next (branchReply (owner s).1 r (owner s).2.word (owner s).2.data) := by
  rw [writeSetting_branch idle, if_neg (by simp [State.isSaving, free])]

/-- RNGW is refused for its entry number or for its fields, or stores the entry (R32, R33). -/
theorem exec_rngw {s : State} (idle : branchIdle s) (free : s.ss.saving = none) (entry : Byte) (f : RangeField) :
    (7 < entry.toNat ∨ badRange f → exec (.rngw entry f) s = .next (branchReply s .rngw .badValue [])) ∧
    (∀ n : Fin 8, ¬ badRange f → entry.toNat = n.val →
      exec (.rngw entry f) s = .next (branchReply
        { s with trt := { s.trt with entries := s.trt.entries.set n (storedRange f) } } .rngw .ok
        (entry :: (storedRange f).bytes))) := by
  simp only [exec, execRngw, writeSetting_free idle free]
  refine ⟨fun bad => ?_, fun n good number => ?_⟩
  · obtain out | bad := bad
    · have none : entryOf entry = none := dif_neg (by omega)
      simp [none, refuse]
    · cases entryOf entry <;> simp [rangeEntryOf_of_bad bad, refuse]
  · simp [entryOf_eq_some_iff.mpr number, rangeEntryOf_of_good good, ok, byte_of_toNat number]

/-- Settles O21: the fields are refused or read as one entry, whose bytes are those carried; the flag of the general range
is written and the chute tested again. -/
theorem rangesAndRoutingAreWritten : Obligations.RangesAndRoutingAreWritten := by
  refine ⟨fun entry f s idle free => ?_, fun s idle free => ?_⟩
  · obtain ⟨refused, stored⟩ := exec_rngw idle free entry f
    refine ⟨refused, fun n good number => (stored n (fun bad => good (.inr bad)) number).trans ?_⟩
    rw [bytes_of_rangeEntryOf (rangeEntryOf_of_good fun bad => good (.inr bad))]
    rfl
  · simp only [exec, execGenr, execRnga, writeSetting_free idle free]
    exact ⟨rfl, rfl⟩

end Sys2Proof.SettingsProofs
end

section
/-! PROOF. The stages of a route: the candidates that match the tag, and the first of them that ends it (R31, R34, R37 to
R42). -/

namespace Sys2Proof.SettingsProofs

open Sys2Proof.Machine Sys2Proof.Safety Sys2Proof.CustodyProofs

/-! ## Matching -/

/-- The leading bits of two tags are equal when the tags agree after a shift that drops the others (R31). -/
theorem shiftRight_eq_iff_msbs (t b : Tag) (n : Nat) :
    t >>> (32 - n) = b >>> (32 - n) ↔ ∀ i < n, t.getMsbD i = b.getMsbD i := by
  refine ⟨fun shifted i hi => ?_, fun leading => BitVec.eq_of_getLsbD_eq fun i hi => ?_⟩
  · by_cases inside : i < 32
    · have bit := congrArg (fun x : Tag => x.getLsbD (n - 1 - i - (n - 32))) shifted
      have place : 32 - n + (n - 1 - i - (n - 32)) = 31 - i := by omega
      simp only [BitVec.getLsbD_ushiftRight, place] at bit
      simpa [BitVec.getMsbD, inside] using bit
    · simp [BitVec.getMsbD, inside]
  · simp only [BitVec.getLsbD_ushiftRight]
    by_cases inside : 32 - n + i < 32
    · have bit := leading (31 - (32 - n + i)) (by omega)
      have place : 32 - 1 - (31 - (32 - n + i)) = 32 - n + i := by omega
      have valid : 31 - (32 - n + i) < 32 := by omega
      simpa only [BitVec.getMsbD, valid, place, decide_true, Bool.true_and] using bit
    · rw [BitVec.getLsbD_of_ge _ _ (by omega), BitVec.getLsbD_of_ge _ _ (by omega)]

theorem matches_iff (e : RangeEntry) (t : Tag) : e.matches t = true ↔
    e.enabled = true ∧ (List.range e.prefixLength).all (fun i => t.getMsbD i == e.base.getMsbD i) = true := by
  simp [RangeEntry.matches, shiftRight_eq_iff_msbs]

/-- The candidate that an entry is for a tag, bit by bit: none where it does not match (R31). -/
def matchOf (n : Fin 8) (e : RangeEntry) (tag : Option Tag) : Option Candidate :=
  match tag with
  | none => none
  | some t =>
    if e.enabled ∧ (List.range e.prefixLength).all (fun i => t.getMsbD i == e.base.getMsbD i) then some ⟨.entry n, e⟩
    else none

/-- The entries that match, in their order (R38). -/
def matchingEntries (x : Routing) (tag : Option Tag) : List Candidate :=
  (List.finRange 8).filterMap fun n => matchOf n x.entries[n] tag

theorem filterMap_eq_map_filter {α β : Type} (l : List α) (test : α → Bool) (f : α → β) :
    l.filterMap (fun x => if test x = true then some (f x) else none) = (l.filter test).map f := by
  induction l with
  | nil => rfl
  | cons x l ih => by_cases h : test x = true <;> simp [h, ih]

theorem candidates_table {x : Routing} (table : x.general = false) (tag : Option Tag) :
    x.candidates tag = matchingEntries x tag := by
  unfold Routing.candidates matchingEntries
  rw [table, if_neg Bool.false_ne_true, ← filterMap_eq_map_filter]
  refine List.filterMap_congr fun n _ => ?_
  cases tag with
  | none => rfl
  | some t => exact if_congr (matches_iff _ t) rfl rfl

/-! ## The tests of one candidate -/

/-- The fit test of a bag with a size class is room in the pocket (R36, R72, R73). -/
theorem fits_iff (s : State) (p : Fin 21) {size : Nat} (positive : 1 ≤ size) :
    s.pcc.fits p (some size) = true ↔ hasRoom s p size := by
  have service : s.pcc.classOf p = .outOfService ↔ s.pcc.pockets[p].capacity = 0 := by
    unfold Carousel.classOf
    by_cases none : s.pcc.pockets[p].capacity = 0
    · exact iff_of_true (if_pos none) none
    · rw [if_neg none]
      refine iff_of_false ?_ none
      (repeat' split) <;> nofun
  unfold Carousel.fits hasRoom Carousel.freeUnits
  rw [Bool.and_eq_true, bne_iff_ne, ne_eq, service, decide_eq_true_iff]
  omega

/-- What caps a candidate for a record (R18, R39). -/
def atCap (s : State) (r : Record) (e : RangeEntry) : Prop :=
  0 < e.cap ∧ ∃ a, r.advice = some a ∧
    e.cap ≤ s.cr.records.countP fun x => decide (x.receipt ≠ r.receipt ∧
      x.advice.map Advice.customer = some a.customer ∧
      (x.state = .intake ∨ x.state = .held ∨ x.state = .staged ∨ x.state = .overdue))

theorem capped_iff (s : State) (r : Record) (e : RangeEntry) : s.capped r e = true ↔ atCap s r e := by
  have bags (customer : Nat) : customerBags s.cr.records customer r.receipt =
      s.cr.records.countP fun x => decide (x.receipt ≠ r.receipt ∧ x.advice.map Advice.customer = some customer ∧
        (x.state = .intake ∨ x.state = .held ∨ x.state = .staged ∨ x.state = .overdue)) := by
    refine List.countP_congr fun x _ => ?_
    simp [and_assoc, or_assoc]
  unfold State.capped atCap
  cases r.advice <;> simp [bags]

section Stages

variable {s : State} {r : Record} {size : Nat} (sizeClass : r.size = some size) (positive : 1 ≤ size)

include sizeClass positive

theorem find_fits_eq_none_iff (g : List (Fin 21)) :
    g.find? (fun p => s.pcc.fits p r.size) = none ↔ ∀ p ∈ g, ¬ hasRoom s p size := by
  simp only [List.find?_eq_none, sizeClass, fits_iff s _ positive]

theorem find_fits_of_first {g rest : List (Fin 21)} {p : Fin 21} (full : ∀ x ∈ g, ¬ hasRoom s x size)
    (room : hasRoom s p size) : (g ++ p :: rest).find? (fun p => s.pcc.fits p r.size) = some p := by
  rw [List.find?_append, (find_fits_eq_none_iff sizeClass positive g).mpr full, Option.none_or]
  exact List.find?_cons_of_pos (by rw [sizeClass]; exact (fits_iff s p positive).mpr room)

/-- The candidates before one that ends the route are passed over (R39, R40). -/
theorem routeOpen_skip {c d : Candidate} {rest : List Candidate} (uncapped : ¬ atCap s r c.entry)
    (full : ∀ p ∈ c.entry.group, ¬ hasRoom s p size) : s.routeOpen r c (d :: rest) = s.routeOpen r d rest := by
  rw [State.routeOpen, if_neg ((capped_iff s r c.entry).not.mpr uncapped),
    (find_fits_eq_none_iff sizeClass positive c.entry.group).mpr full]

theorem routeOpen_skip_all {before after : List Candidate} {c d : Candidate} {rest : List Candidate}
    (passed : ∀ x ∈ before, ¬ atCap s r x.entry ∧ ∀ p ∈ x.entry.group, ¬ hasRoom s p size)
    (h : d :: rest = before ++ c :: after) : s.routeOpen r d rest = s.routeOpen r c after := by
  induction before generalizing d rest with
  | nil =>
    obtain ⟨rfl, rfl⟩ := List.cons.inj h
    rfl
  | cons x before ih =>
    rw [List.cons_append] at h
    obtain ⟨rfl, rfl⟩ := List.cons.inj h
    obtain ⟨uncapped, full⟩ := passed d (by simp)
    obtain ⟨e, l, next⟩ := List.exists_cons_of_ne_nil (l := before ++ c :: after) (by simp)
    rw [next, routeOpen_skip sizeClass positive uncapped full]
    exact ih (fun x hx => passed x (by simp [hx])) next.symm

/-- A pocket of the group has room: the route ends there, or with the audit (R40, R41). -/
theorem routeOpen_of_room {c : Candidate} {rest : List Candidate} {g after : List (Fin 21)} {p : Fin 21}
    (uncapped : ¬ atCap s r c.entry) (group : c.entry.group = g ++ p :: after) (full : ∀ x ∈ g, ¬ hasRoom s x size)
    (room : hasRoom s p size) : s.routeOpen r c rest =
      if c.entry.audit then
        { pocket := 0, range := some c.ref, tolSet := c.entry.tolSet, nominal := some p, cause := some .audit }
      else { pocket := p, range := some c.ref, tolSet := c.entry.tolSet, nominal := none, cause := none } := by
  unfold State.routeOpen
  rw [if_neg ((capped_iff s r c.entry).not.mpr uncapped), group, find_fits_of_first sizeClass positive full room]

theorem routeOpen_noRoom {c : Candidate} (uncapped : ¬ atCap s r c.entry)
    (full : ∀ p ∈ c.entry.group, ¬ hasRoom s p size) : s.routeOpen r c [] =
      { pocket := 0, range := some c.ref, tolSet := c.entry.tolSet, nominal := none, cause := some .noRoom } := by
  rw [State.routeOpen, if_neg ((capped_iff s r c.entry).not.mpr uncapped),
    (find_fits_eq_none_iff sizeClass positive c.entry.group).mpr full]

end Stages

theorem routeOpen_capped {s : State} {r : Record} {c : Candidate} {rest : List Candidate} (capped : atCap s r c.entry) :
    s.routeOpen r c rest =
      { pocket := 0, range := some c.ref, tolSet := c.entry.tolSet, nominal := none, cause := some .cap } := by
  unfold State.routeOpen
  exact if_pos ((capped_iff s r c.entry).mpr capped)

/-! ## The stages -/

/-- A cause set at identification (R37). -/
def causeIdentified (x : Option Cause) : Prop := x = some .noTag ∨ x = some .twoTags ∨ x = some .dupTag

theorem atIdentification_iff (x : Cause) : x.atIdentification = true ↔ causeIdentified (some x) := by
  cases x <;> simp [Cause.atIdentification, causeIdentified]

theorem route_of_identified {s : State} {r : Record} (h : causeIdentified r.cause) :
    s.route r = { pocket := 0, range := none, tolSet := 0, nominal := none, cause := r.cause } := by
  unfold State.route
  obtain cause | cause | cause := h <;> rw [cause] <;> rfl

theorem route_of_not_identified {s : State} {r : Record} (h : ¬ causeIdentified r.cause) :
    s.route r = s.routeAmong r (s.trt.candidates r.tag) := by
  have none : r.cause.filter Cause.atIdentification = none :=
    Option.filter_eq_none_iff.mpr fun x hx => (atIdentification_iff x).not.mpr (hx ▸ h)
  rw [State.route, none]

/-- The candidates of a tag: the general range alone, or the entries that match (R34, R38). -/
theorem candidates_eq (x : Routing) (tag : Option Tag) :
    x.candidates tag = if x.general then [⟨.general, generalRange⟩] else matchingEntries x tag := by
  cases general : x.general with
  | true => rw [Routing.candidates, general]; rfl
  | false => exact candidates_table general tag

/-- With an open candidate the route is taken among the open ones (R38). -/
theorem routeAmong_of_open {s : State} {r : Record} {candidates rest : List Candidate} {c : Candidate}
    (h : (candidates.filter fun x => !x.entry.closed) = c :: rest) :
    s.routeAmong r candidates = s.routeOpen r c rest := by
  cases candidates with
  | nil => simp at h
  | cons d l =>
    unfold State.routeAmong
    rw [h]

theorem routeAmong_of_closed {s : State} {r : Record} {c : Candidate} {rest : List Candidate}
    (h : ∀ x ∈ c :: rest, x.entry.closed = true) : s.routeAmong r (c :: rest) =
      { pocket := 0, range := some c.ref, tolSet := c.entry.tolSet, nominal := none, cause := some .rangeClosed } := by
  have closed : ((c :: rest).filter fun x => !x.entry.closed) = [] :=
    List.filter_eq_nil_iff.mpr fun x hx => by simp [h x hx]
  unfold State.routeAmong
  rw [closed]

/-- Settles O42: the candidates are those that match bit by bit, and `routeOpen` passes over each one that neither is
capped nor has room. -/
theorem routeFollowsTheStages : Obligations.RouteFollowsTheStages := by
  intro s r size sizeClass positive identified matching
  have matched : s.trt.candidates r.tag = matching := candidates_eq s.trt r.tag
  refine ⟨route_of_identified, fun fresh none => ?_, fun c rest fresh some_ closed => ?_,
    fun before c after fresh open_ passed => ?_⟩
  · rw [route_of_not_identified fresh, matched, none]
    rfl
  · rw [route_of_not_identified fresh, matched, some_]
    exact routeAmong_of_closed (some_ ▸ closed)
  · have route : s.route r = s.routeOpen r c after := by
      obtain ⟨d, rest, first⟩ := List.exists_cons_of_ne_nil (l := before ++ c :: after) (by simp)
      rw [route_of_not_identified fresh, matched, routeAmong_of_open (open_.trans first)]
      exact routeOpen_skip_all sizeClass positive passed first.symm
    rw [route]
    refine ⟨routeOpen_capped, fun g p rest uncapped group full room => ?_, fun uncapped full last => ?_⟩
    · exact routeOpen_of_room sizeClass positive uncapped group full room
    · rw [last]
      exact routeOpen_noRoom sizeClass positive uncapped full

end Sys2Proof.SettingsProofs
end

section
/-! PROOF. The settings in their ranges: what each write request and each part of an image stores, the defaults, and the
length of the image (R32, R46, R50, R75, R136, R152, R177, R178, R180). -/

namespace Sys2Proof.SettingsProofs

open Sys2Proof.Machine Sys2Proof.Safety Sys2Proof.CustodyProofs

/-! ## Ranges -/

/-- A range entry in its ranges (R32). -/
def entryLegal (e : RangeEntry) : Prop :=
  8 ≤ e.prefixLength ∧ e.prefixLength ≤ 32 ∧ e.cap ≤ 15 ∧ 1 ≤ e.group.length ∧ e.group.length ≤ 8 ∧ e.group.Nodup ∧
    ∀ p ∈ e.group, p ≠ 0

/-- A denomination entry in its ranges (R46). -/
def denomLegal (d : Denomination) : Prop := d.face ≤ 1000000 ∧ d.mass ≤ 65535 ∧ d.spread ≤ 255

/-- A tolerance set in its ranges (R50). -/
def tolLegal (t : ToleranceSet) : Prop :=
  t.tare ≤ 999999 ∧ t.tareSpread ≤ 99999 ∧ t.lower ≤ 999999 ∧ t.upper ≤ 999999 ∧ t.plausMin ≤ 200000 ∧ t.plausMax ≤ 200000

/-- A roster that ROST takes (R136). -/
def rosterLegal (l : List Staff) : Prop :=
  l.length ≤ 16 ∧ (∀ m ∈ l, 1 ≤ m.id ∧ m.id ≤ 999999) ∧ (l.map Staff.id).Nodup

/-- The intervals in their ranges (R180). -/
def timersLegal (t : TimerValues) : Prop :=
  t.grace ≤ 3600 ∧ 1 ≤ t.handover ∧ t.handover ≤ 240 ∧ 10 ≤ t.pairing ∧ t.pairing ≤ 300 ∧ 60 ≤ t.idle ∧ t.idle ≤ 3600 ∧
    50 ≤ t.step ∧ t.step ≤ 1000 ∧ t.settle ≤ 2000

theorem settingsLegal_iff {x : SettingValues} : settingsLegal x ↔
    (∀ i : Fin 8, entryLegal x.entries[i]) ∧ (∀ i : Fin 16, denomLegal x.denoms[i]) ∧ (∀ i : Fin 4, tolLegal x.tols[i]) ∧
      (∀ i : Fin 20, x.capacities[i] ≤ 24) ∧ rosterLegal x.roster ∧ x.policy.length ≤ 4 ∧ timersLegal x.timers := Iff.rfl

/-! ## What the write requests store -/

theorem forall_of_allSome {α β : Type} {f : α → Option β} {P : β → Prop} {l : List α} {xs : List β}
    (h : allSome (l.map f) = some xs) (hf : ∀ a x, f a = some x → P x) : ∀ x ∈ xs, P x := by
  intro x hx
  have mem : some x ∈ l.map f := allSome_eq_some_iff.mp h ▸ List.mem_map_of_mem hx
  obtain ⟨a, -, e⟩ := List.mem_map.mp mem
  exact hf a x e

theorem length_of_allSome {α β : Type} {f : α → Option β} {l : List α} {xs : List β} (h : allSome (l.map f) = some xs) :
    xs.length = l.length := by
  simpa using (congrArg List.length (allSome_eq_some_iff.mp h)).symm

theorem clamp_mem {lo hi : Nat} (h : lo ≤ hi) (x : Nat) : lo ≤ clamp lo hi x ∧ clamp lo hi x ≤ hi := by
  unfold clamp
  omega

theorem entryLegal_of_rangeEntryOf {f : RangeField} {e : RangeEntry} (h : rangeEntryOf f = some e) : entryLegal e := by
  obtain ⟨-, -, -, -, group, -, cap, -, length⟩ := rangeEntryOf_eq_some_iff.mp h
  obtain ⟨low, high, pockets, distinct⟩ := groupOf_eq_some_iff.mp group
  obtain ⟨short, long⟩ := clamp_mem (lo := 8) (hi := 32) (by decide) f.prefixLength.toNat
  exact ⟨length ▸ short, length ▸ long, cap, low, high, distinct, fun p hp => ne_zero_of_pockets pockets hp⟩

theorem entryLegal.length_group {e : RangeEntry} (h : entryLegal e) : e.group.length ≤ 8 := by
  obtain ⟨-, -, -, -, eight, -⟩ := h
  exact eight

theorem denomLegal_of_denominationOf {f : DenomField} {d : Denomination} (h : denominationOf f = some d) :
    denomLegal d := by
  unfold denominationOf at h
  split at h
  next face =>
    obtain rfl := Option.some.inj h
    exact ⟨face, Nat.le_of_lt_succ f.mass.isLt, Nat.le_of_lt_succ f.spread.isLt⟩
  next => cases h

theorem tolLegal_toleranceOf (f : TolField) : tolLegal (toleranceOf f) := by
  simp [tolLegal, toleranceOf]

theorem staffOf_id {f : StaffField} {m : Staff} (h : staffOf f = some m) : 1 ≤ m.id ∧ m.id ≤ 999999 := by
  unfold staffOf at h
  simp only [Option.bind_eq_bind, Option.bind_eq_some_iff] at h
  obtain ⟨id, named, role, -, e⟩ := h
  obtain rfl := Option.some.inj e
  unfold staffIdOf at named
  split at named
  next inside => exact Option.some.inj named ▸ inside
  next => cases named

theorem rosterLegal_of_rosterOf {entries : List StaffField} {l : List Staff} (h : rosterOf entries = some l) :
    rosterLegal l := by
  unfold rosterOf at h
  split at h
  next short =>
    simp only [Option.filter_eq_some_iff, decide_eq_true_eq] at h
    obtain ⟨staff, distinct⟩ := h
    exact ⟨length_of_allSome staff ▸ short, forall_of_allSome staff fun _ _ => staffOf_id, distinct⟩
  next => cases h

theorem length_of_policyOf {terms : List TermField} {l : List PolicyTerm} (h : policyOf terms = some l) : l.length ≤ 4 := by
  unfold policyOf at h
  split at h
  next short => exact length_of_allSome h ▸ short
  next => cases h

theorem timersLegal_of_timersOf {f : TimerField} {x : TimerValues} (h : timersOf f = some x) : timersLegal x := by
  unfold timersOf at h
  simp only [Option.bind_eq_bind, Option.bind_eq_some_iff] at h
  obtain ⟨_, -, _, -, e⟩ := h
  obtain rfl := Option.some.inj e
  have grace := clamp_mem (lo := 0) (hi := 3600) (by decide) f.grace.toNat
  have handover := clamp_mem (lo := 1) (hi := 240) (by decide) f.handover.toNat
  have pairing := clamp_mem (lo := 10) (hi := 300) (by decide) f.pairing.toNat
  have idle := clamp_mem (lo := 60) (hi := 3600) (by decide) f.idle.toNat
  have step := clamp_mem (lo := 50) (hi := 1000) (by decide) f.step.toNat
  have settle := clamp_mem (lo := 0) (hi := 2000) (by decide) f.settle.toNat
  exact ⟨grace.2, handover.1, handover.2, pairing.1, pairing.2, idle.1, idle.2, step.1, step.2, settle.2⟩

/-- What holds of every place of a vector and of a new value holds after the value is written. -/
theorem forall_set {α : Type} {n : Nat} {P : α → Prop} {v : Vector α n} (hv : ∀ i : Fin n, P v[i]) (k : Fin n) {x : α}
    (hx : P x) (i : Fin n) : P (v.set k x)[i] := by
  rw [Fin.getElem_fin, Vector.getElem_set]
  split
  · exact hx
  · exact hv i

theorem denomLegal_writeDenoms {v : Vector Denomination 16} {l : List Denomination} (k : Fin 16)
    (hv : ∀ i : Fin 16, denomLegal v[i]) (hl : ∀ d ∈ l, denomLegal d) (i : Fin 16) : denomLegal (writeDenoms v k l)[i] := by
  induction l generalizing v k with
  | nil => exact hv i
  | cons d l ih => exact ih (k + 1) (forall_set hv k (hl d (by simp))) fun x hx => hl x (by simp [hx])

/-! ## The load -/

theorem settingsLegal_default : settingsLegal SettingValues.default := by
  refine settingsLegal_iff.mpr ⟨fun i => ?_, fun i => ?_, fun i => ?_, fun i => ?_, ?_, ?_, ?_⟩
  · simp [SettingValues.default, entryLegal]
  · simp [SettingValues.default, denomLegal]
  · simp [SettingValues.default, tolLegal]
  · simp [SettingValues.default, Config.maxCapacity]
  · simp [SettingValues.default, rosterLegal]
  · simp [SettingValues.default, defaultPolicy]
  · simp [SettingValues.default, TimerValues.default, timersLegal]

theorem entryLegal_of_readRange {image : List Byte} {i : Fin 8} {e : RangeEntry} (h : readRange image i = some e) :
    entryLegal e := by
  unfold readRange at h
  dsimp only at h
  split at h
  · exact entryLegal_of_rangeEntryOf h
  · cases h

theorem rosterLegal_of_readRoster {image : List Byte} {l : List Staff} (h : readRoster image = some l) : rosterLegal l := by
  unfold readRoster at h
  dsimp only at h
  split at h
  · exact rosterLegal_of_rosterOf h
  · cases h

theorem length_of_readPolicy {image : List Byte} {l : List PolicyTerm} (h : readPolicy image = some l) : l.length ≤ 4 := by
  unfold readPolicy at h
  dsimp only at h
  split at h
  · exact length_of_policyOf h
  · cases h

/-- A place of a list, or the default past its end. -/
theorem getD_of_forall {α : Type} {P : α → Prop} {l : List α} {d : α} (hl : ∀ x ∈ l, P x) (hd : P d) (i : Nat) :
    P (l.getD i d) := by
  rw [List.getD_eq_getElem?_getD]
  cases e : l[i]? with
  | none => exact hd
  | some x => exact hl x (List.mem_of_getElem? e)

/-- The fields of an image are checked and clamped as their write requests are (R178). -/
theorem settingsLegal_of_readSettings {image : List Byte} {x : SettingValues} (h : readSettings image = some x) :
    settingsLegal x := by
  unfold readSettings at h
  simp only [Option.bind_eq_bind, Option.bind_eq_some_iff] at h
  obtain ⟨entries, hentries, _, -, denoms, hdenoms, roster, hroster, policy, hpolicy, timers, htimers, e⟩ := h
  obtain rfl := Option.some.inj e
  refine settingsLegal_iff.mpr ⟨fun i => ?_, fun i => ?_, fun i => ?_, fun i => ?_, ?_, ?_, ?_⟩
  · simp only [Fin.getElem_fin, Vector.getElem_ofFn]
    exact getD_of_forall (forall_of_allSome hentries fun _ _ => entryLegal_of_readRange) (by simp [entryLegal]) i
  · simp only [Fin.getElem_fin, Vector.getElem_ofFn]
    exact getD_of_forall (forall_of_allSome hdenoms fun _ _ => denomLegal_of_denominationOf) (by simp [denomLegal]) i
  · simp only [Fin.getElem_fin, Vector.getElem_ofFn]
    exact tolLegal_toleranceOf _
  · simp only [Fin.getElem_fin, Vector.getElem_ofFn]
    exact Nat.min_le_left ..
  · exact rosterLegal_of_readRoster hroster
  · exact length_of_readPolicy hpolicy
  · exact timersLegal_of_timersOf htimers

/-- Whatever the outcome of the load, the settings are in their ranges (R178). -/
theorem settingsLegal_loadSettings (off answers : Bool) (image : List Byte) :
    settingsLegal (loadSettings off answers image).2 := by
  unfold loadSettings
  split
  · exact settingsLegal_default
  split
  · exact settingsLegal_default
  split
  · exact settingsLegal_default
  next x loaded =>
    split at loaded
    · unfold checkImage at loaded
      split at loaded
      · split at loaded
        · exact settingsLegal_of_readSettings loaded
        · cases loaded
      · cases loaded
    · cases loaded

/-! ## The image -/

theorem length_flatMap_of_forall {α β : Type} {l : List α} {f : α → List β} {k : Nat} (h : ∀ x ∈ l, (f x).length = k) :
    (l.flatMap f).length = l.length * k := by
  rw [List.length_flatMap, List.map_congr_left h, List.map_const', List.sum_replicate, smul_eq_mul]

theorem length_unusedPlaces (save place n : Nat) : (unusedPlaces save place n).length = n := by simp [unusedPlaces]

/-- A range entry takes 19 bytes, the unused places of its group counted (R177). -/
theorem length_rangeImage {e : RangeEntry} (h : e.group.length ≤ 8) (save : Nat) (i : Fin 8) :
    (rangeImage save e i).length = 19 := by
  simp only [rangeImage, RangeEntry.bytes, List.length_append, List.length_cons, List.length_nil, List.length_map,
    length_be, length_unusedPlaces]
  omega

/-- The image of settings in their ranges has 435 bytes (R177). -/
theorem length_image {x : SettingValues} (h : settingsLegal x) (save : Nat) : (x.image save).length = 435 := by
  obtain ⟨entries, -, -, -, roster, policy, -⟩ := settingsLegal_iff.mp h
  have ranges : ((List.finRange 8).flatMap fun i => rangeImage save x.entries[i] i).length = 8 * 19 := by
    rw [length_flatMap_of_forall fun i _ => length_rangeImage (entries i).length_group save i, List.length_finRange]
  have denoms : (x.denoms.toList.flatMap Denomination.bytes).length = 16 * 6 := by
    rw [length_flatMap_of_forall (k := 6) fun d _ => by simp [Denomination.bytes, length_be], Vector.length_toList]
  have tols : (x.tols.toList.flatMap ToleranceSet.bytes).length = 4 * 18 := by
    rw [length_flatMap_of_forall (k := 18) fun t _ => by simp [ToleranceSet.bytes, length_be], Vector.length_toList]
  have staff : (x.roster.flatMap Staff.bytes).length = x.roster.length * 4 :=
    length_flatMap_of_forall fun m _ => by simp [Staff.bytes, length_be]
  have terms : (x.policy.flatMap PolicyTerm.bytes).length = x.policy.length * 2 :=
    length_flatMap_of_forall fun t _ => by simp [PolicyTerm.bytes]
  have few := roster.1
  simp only [SettingValues.image, SettingValues.body, TimerValues.bytes, List.length_append, List.length_cons,
    List.length_nil, List.length_map, Vector.length_toList, length_be, length_unusedPlaces, ranges, denoms, tols, staff,
    terms]
  omega

end Sys2Proof.SettingsProofs
end

section
/-! PROOF. What every operation does to the settings, the copy of a save and the EEPROM: most leave all of them as they were
(R30, R45, R49, R71, R135, R151, R177, R180, R181). -/

namespace Sys2Proof.SettingsProofs

open Sys2Proof.Machine Sys2Proof.Safety Sys2Proof.CustodyProofs

/-! ## The view -/

/-- What the settings invariant reads: the settings where they stand, the copy of a save and the EEPROM. -/
def settingsView (s : State) : Routing × Vector Denomination 16 × Vector ToleranceSet 4 × Vector Nat 21 × List Staff ×
    List PolicyTerm × TimerValues × Option (List Byte) × Memory :=
  (s.trt, s.wau.denoms, s.wau.tols, s.pcc.pockets.map Pocket.capacity, s.rc.roster, s.rc.policy, s.timers, s.ss.saving,
    s.ss.eeprom)

theorem settingsView_eq_iff {s t : State} : settingsView t = settingsView s ↔
    t.trt = s.trt ∧ t.wau.denoms = s.wau.denoms ∧ t.wau.tols = s.wau.tols ∧
      t.pcc.pockets.map Pocket.capacity = s.pcc.pockets.map Pocket.capacity ∧ t.rc.roster = s.rc.roster ∧
      t.rc.policy = s.rc.policy ∧ t.timers = s.timers ∧ t.ss.saving = s.ss.saving ∧ t.ss.eeprom = s.ss.eeprom := by
  simp only [settingsView, Prod.mk.injEq]

theorem settings_of_view {s t : State} (h : settingsView t = settingsView s) :
    t.settings = s.settings ∧ t.ss.saving = s.ss.saving ∧ t.ss.eeprom = s.ss.eeprom := by
  obtain ⟨trt, denoms, tols, capacities, roster, policy, timers, saving, eeprom⟩ := settingsView_eq_iff.mp h
  have capacity (i : Fin 20) : t.pcc.pockets[storagePocket i].capacity = s.pcc.pockets[storagePocket i].capacity := by
    have place := congrArg (fun v : Vector Nat 21 => v[storagePocket i]) capacities
    simpa only [Fin.getElem_fin, Vector.getElem_map] using place
  refine ⟨?_, saving, eeprom⟩
  unfold State.settings
  rw [trt, denoms, tols, roster, policy, timers, funext capacity]

theorem settingsRight_congr {s t : State} (h : settingsView t = settingsView s) (hs : settingsRight s) :
    settingsRight t := by
  obtain ⟨settings, saving, eeprom⟩ := settings_of_view h
  unfold settingsRight eepromCanonical at *
  rw [settings, saving, eeprom]
  exact hs

/-! ## Pockets written with their capacities as they were -/

theorem capacities_set {v : Vector Pocket 21} {p : Fin 21} {x : Pocket} (h : x.capacity = v[p].capacity) :
    (v.set p x).map Pocket.capacity = v.map Pocket.capacity := by
  ext i hi
  simp only [Vector.getElem_map, Vector.getElem_set]
  split
  next e => subst e; exact h
  next => rfl

theorem capacities_ofFn {v : Vector Pocket 21} {f : Fin 21 → Pocket} (h : ∀ p, (f p).capacity = v[p].capacity) :
    (Vector.ofFn f).map Pocket.capacity = v.map Pocket.capacity := by
  ext i hi
  simp only [Vector.getElem_map, Vector.getElem_ofFn]
  exact h ⟨i, hi⟩

@[simp] theorem capacities_enterPocket (s : State) (p : Fin 21) (r : Record) :
    (s.enterPocket p r).pcc.pockets.map Pocket.capacity = s.pcc.pockets.map Pocket.capacity := by
  simp only [State.enterPocket, State.raiseWhen_pcc, State.setPocket_pockets]
  exact capacities_set rfl

@[simp] theorem capacities_leavePocket (s : State) (p : Fin 21) (r : Record) :
    (s.leavePocket p r).pcc.pockets.map Pocket.capacity = s.pcc.pockets.map Pocket.capacity := capacities_set rfl

@[simp] theorem capacities_place (s : State) (r : Record) (p : Fin 21) :
    (s.place r p).pcc.pockets.map Pocket.capacity = s.pcc.pockets.map Pocket.capacity := by
  simp [State.place]

@[simp] theorem capacities_stage (s : State) (r : Record) (q : Fin 21) :
    (s.stage r q).pcc.pockets.map Pocket.capacity = s.pcc.pockets.map Pocket.capacity := by
  simp [State.stage]

@[simp] theorem capacities_giveBack (s : State) (r : Record) (q : Fin 21) :
    (s.giveBack r q).pcc.pockets.map Pocket.capacity = s.pcc.pockets.map Pocket.capacity := by
  simp [State.giveBack]

@[simp] theorem capacities_raiseDeclared (s : State) (l : Location) (n : Nat) :
    (s.raiseDeclared l n).pcc.pockets.map Pocket.capacity = s.pcc.pockets.map Pocket.capacity := by
  unfold State.raiseDeclared
  split
  · exact capacities_set rfl
  all_goals rfl

@[simp] theorem capacities_attach (s : State) (r : Record) (a : Advice) (m : AdviceMark) :
    (s.attach r a m).pcc.pockets.map Pocket.capacity = s.pcc.pockets.map Pocket.capacity := by
  simp [State.attach]

@[simp] theorem capacities_wipe (s : State) : s.wipe.pcc.pockets.map Pocket.capacity = s.pcc.pockets.map Pocket.capacity :=
  capacities_ofFn fun _ => rfl

/-! ## Operations that leave the view as it was -/

theorem settingsView_wipe (s : State) : settingsView s.wipe = settingsView s :=
  settingsView_eq_iff.mpr ⟨rfl, rfl, rfl, capacities_wipe s, rfl, rfl,
    by simp [State.timers, State.wipe], rfl, rfl⟩

theorem settingsView_retest (s : State) : settingsView s.retest = settingsView s := by
  simp [settingsView, State.timers]

theorem settingsView_advise (s : State) (tag : Tag) (a : Advice) :
    settingsView (s.advise tag a).1 = settingsView s := by
  unfold State.advise
  (repeat' split) <;> simp [settingsView, State.timers, ok, refuse]

theorem settingsView_withdrawAdvice (s : State) (tag : Tag) (wanted : RecState) :
    settingsView (s.withdrawAdvice tag wanted).1 = settingsView s := by
  unfold State.withdrawAdvice
  (repeat' split) <;> simp [settingsView, State.timers, ok, refuse]

theorem settingsView_confirm (s : State) (n counted : Nat) (ids : List (BitVec 24)) :
    settingsView (s.confirm n counted ids).1 = settingsView s := by
  unfold State.confirm
  (repeat' split) <;> simp [settingsView, State.timers, refuse]

theorem settingsView_credential (s : State) (id : BitVec 24) : settingsView (s.credential id).1 = settingsView s := by
  unfold State.credential
  (repeat' split) <;> rfl

theorem settingsView_afterPermit {s t : State} (h : settingsView t = settingsView s) :
    settingsView (s.afterPermit t) = settingsView s := by
  unfold State.afterPermit
  split
  · exact Eq.trans (by simp [settingsView, State.timers]) h
  · exact h

theorem settingsView_afterStaging (s : State) (q : Fin 21) : settingsView (s.afterStaging q) = settingsView s := by
  unfold State.afterStaging
  split
  · simp [settingsView, State.timers]
  · rfl

theorem settingsView_settleJam (s : State) (r : Record) (d : Disposition) :
    settingsView (s.settleJam r d) = settingsView s := by
  unfold State.settleJam
  split <;> simp [settingsView, State.timers]

theorem settingsView_leaveJammed (s : State) : settingsView s.leaveJammed = settingsView s := by
  simp [settingsView, State.timers, State.leaveJammed, State.clearReadings]

theorem settingsView_scan (s : State) (t : Tag) (atMs : Nat) (q : Fin 21) :
    settingsView (s.scan t atMs q) = settingsView s := by
  unfold State.scan
  split
  · rfl
  split
  · exact (settingsView_afterStaging ..).trans (by simp [settingsView, State.timers, State.light])
  · unfold State.scanClaimant
    (repeat' split) <;> simp [settingsView, State.timers]

theorem settingsView_hatchRead (s : State) (x : TagRead) (atMs : Nat) :
    settingsView (s.hatchRead x atMs) = settingsView s := by
  have idle : settingsView s.restartIdle = settingsView s := by simp [settingsView, State.timers]
  unfold State.hatchRead
  split
  · rfl
  split
  · split <;> rfl
  · split
    · exact (settingsView_scan ..).trans idle
    · exact idle

theorem settingsView_moveStep (s : State) (m : Move) (dir : Dir) : settingsView (s.moveStep m dir) = settingsView s := by
  unfold State.moveStep
  (repeat' split) <;> simp [settingsView, State.timers]

theorem settingsView_searchStep (s : State) (x : Search) (dir : Dir) :
    settingsView (s.searchStep x dir) = settingsView s := by
  unfold State.searchStep
  (repeat' split) <;> simp [settingsView, State.timers]

theorem settingsView_hatchOpens (s : State) : settingsView s.hatchOpens = settingsView s := by
  unfold State.hatchOpens
  dsimp only
  (repeat' split) <;> simp [settingsView, State.timers]

theorem settingsView_hatchShuts (s : State) : settingsView s.hatchShuts = settingsView s := by
  unfold State.hatchShuts
  dsimp only
  (repeat' split) <;> simp [settingsView, State.timers]

theorem settingsView_completeTip (s : State) (r : Record) (p : Fin 21) :
    settingsView (s.completeTip r p) = settingsView s := by
  have remembered (c : Carousel) (x : Option RangeRef) : (c.rememberIntake p x).pockets = c.pockets ∧
      (c.rememberIntake p x).stepInterval = c.stepInterval ∧ (c.rememberIntake p x).settleInterval = c.settleInterval ∧
      (c.rememberIntake p x).prePosition = c.prePosition ∧ (c.rememberIntake p x).weakOption = c.weakOption := by
    unfold Carousel.rememberIntake
    split <;> simp
  simp [settingsView, State.timers, State.completeTip, State.freeStation, State.clearReadings, remembered]

theorem settingsView_createDropped {s t : State} {tag : Option Tag} {claim : Bool} {cause : Option Cause}
    (h : s.createDropped tag claim cause = some t) : settingsView t = settingsView s := by
  unfold State.createDropped at h
  split at h
  · obtain rfl := Option.some.inj h
    rfl
  · cases h

theorem settingsView_openRecord {s t : State} (h : s.openRecord = some t) : settingsView t = settingsView s := by
  unfold State.openRecord at h
  split at h
  · exact settingsView_createDropped h
  · exact settingsView_createDropped h
  split at h
  · exact settingsView_createDropped h
  split at h
  case h_1 | h_2 =>
    obtain rfl := Option.some.inj h
    rfl
  all_goals exact settingsView_createDropped h

theorem settingsView_afterWindow (s : State) : settingsView s.afterWindow = settingsView s := by
  unfold State.afterWindow
  dsimp only
  split <;> simp [settingsView, State.timers]

theorem settingsView_expireGrace (s : State) (n : Nat) : settingsView (s.expireGrace n) = settingsView s := by
  unfold State.expireGrace
  split <;> simp [settingsView, State.timers]

theorem settingsView_expireHandover (s : State) (n : Nat) : settingsView (s.expireHandover n) = settingsView s := by
  unfold State.expireHandover
  split <;> simp [settingsView, State.timers]

/-! ## Start-up -/

theorem settingsView_refill (s : State) : settingsView s.refill = settingsView s := by
  unfold State.refill
  generalize s.cr.records.filter _ = l
  induction l generalizing s with
  | nil => rfl
  | cons r l ih => exact (ih _).trans (by simp [settingsView, State.timers])

theorem settingsView_startUp (s : State) : settingsView s.startUpFlags.startIntake.secondPart = settingsView s := by
  unfold State.secondPart
  split <;> simp [settingsView, State.timers, State.startIntake, State.startUpFlags]

/-- The register kept or lost, and the handover timers: the settings are neither (R26, R27). -/
theorem settingsView_restore (s : State) (lost : Bool) :
    settingsView (s.restore lost).restartHandovers = settingsView s := by
  cases lost with
  | false => rfl
  | true =>
    exact settingsView_eq_iff.mpr ⟨rfl, rfl, rfl, capacities_ofFn fun _ => rfl, rfl, rfl,
      by simp [State.timers, State.restore, State.restartHandovers], rfl, rfl⟩

/-- The settings that are given to the blocks are the settings that stand there (R178, R181). -/
theorem settings_install (s : State) (x : SettingValues) : (s.install x).settings = x := by
  have capacities : (s.install x).settings.capacities = x.capacities := by
    ext i hi
    simp [State.settings, State.install, State.withTimers, SettingValues.capacity, storagePocket]
  calc (s.install x).settings = { x with capacities := (s.install x).settings.capacities } := rfl
    _ = x := by rw [capacities]

end Sys2Proof.SettingsProofs
end

section
/-! PROOF. What every request and every event does to the settings, and from it: every step keeps them in their ranges, the
copy of a save whole and the EEPROM canonical (R32, R46, R50, R75, R136, R152, R177, R178, R180 to R182). -/

namespace Sys2Proof.SettingsProofs

open Sys2Proof.Machine Sys2Proof.Safety Sys2Proof.CustodyProofs

/-! ## The writes of settings -/

section Writes

variable {s : State} (hs : settingsRight s)

include hs

theorem settingsRight_entry (n : Fin 8) {e : RangeEntry} (he : entryLegal e) :
    settingsRight { s with trt := { s.trt with entries := s.trt.entries.set n e } } := by
  obtain ⟨⟨entries, others⟩, kept⟩ := hs
  exact ⟨⟨forall_set (P := entryLegal) entries n he, others⟩, kept⟩

theorem settingsRight_denoms (i : Fin 16) {l : List Denomination} (hl : ∀ d ∈ l, denomLegal d) :
    settingsRight { s with wau := { s.wau with denoms := writeDenoms s.wau.denoms i l } } := by
  obtain ⟨⟨entries, denoms, others⟩, kept⟩ := hs
  exact ⟨⟨entries, denomLegal_writeDenoms i denoms hl, others⟩, kept⟩

theorem settingsRight_tolerances (n : Fin 4) {x : ToleranceSet} (hx : tolLegal x) :
    settingsRight { s with wau := { s.wau with tols := s.wau.tols.set n x } } := by
  obtain ⟨⟨entries, denoms, tols, others⟩, kept⟩ := hs
  exact ⟨⟨entries, denoms, forall_set (P := tolLegal) tols n hx, others⟩, kept⟩

/-- A capacity of a storage pocket is at most 24 (R71, R75). -/
theorem settingsRight_capacity (p : Fin 21) (n : Nat) :
    settingsRight (s.setPocket p { s.pcc.pockets[p] with capacity := min Config.maxCapacity n }) := by
  obtain ⟨⟨entries, denoms, tols, capacities, others⟩, kept⟩ := hs
  refine ⟨⟨entries, denoms, tols, fun i => ?_, others⟩, kept⟩
  have bound := capacities i
  simp only [State.settings, State.setPocket_pockets, Fin.getElem_fin, Vector.getElem_ofFn, Vector.getElem_set] at bound ⊢
  split
  · exact Nat.min_le_left ..
  · exact bound

theorem settingsRight_roster {l : List Staff} (hl : rosterLegal l) : settingsRight (s.setRc { s.rc with roster := l }) := by
  obtain ⟨⟨entries, denoms, tols, capacities, -, others⟩, kept⟩ := hs
  exact ⟨⟨entries, denoms, tols, capacities, hl, others⟩, kept⟩

theorem settingsRight_policy {l : List PolicyTerm} (hl : l.length ≤ 4) :
    settingsRight (s.setRc { s.rc with policy := l }) := by
  obtain ⟨⟨entries, denoms, tols, capacities, roster, -, timers⟩, kept⟩ := hs
  exact ⟨⟨entries, denoms, tols, capacities, roster, hl, timers⟩, kept⟩

theorem settingsRight_withTimers {x : TimerValues} (hx : timersLegal x) : settingsRight (s.withTimers x) := by
  obtain ⟨⟨entries, denoms, tols, capacities, roster, policy, -⟩, kept⟩ := hs
  exact ⟨⟨entries, denoms, tols, capacities, roster, policy, hx⟩, kept⟩

/-- The general-routing flag has no range (R35). -/
theorem settingsRight_chooseRouting (general : Bool) : settingsRight (s.chooseRouting general) :=
  settingsRight_congr (s := { s with trt := { s.trt with general }, ss := { s.ss with notConfigured := false } })
    (by simp [settingsView, State.timers, State.chooseRouting]) hs

/-- A save takes a whole image that begins with format 1 (R177, R181). -/
theorem settingsRight_save : settingsRight
    { s with ss := { s.ss with saving := some (s.settings.image s.ss.saves), saves := s.ss.saves + 1 } } := by
  obtain ⟨legal, -, canonical⟩ := hs
  refine ⟨legal, fun copy taken => ?_, canonical⟩
  obtain rfl := Option.some.inj taken
  exact ⟨length_image legal _, rfl⟩

/-- The end of a save leaves no copy, and the EEPROM in its canonical form (R182). -/
theorem settingsRight_completeSave (answers : Bool) (differs : List (Nat × Byte)) :
    settingsRight (s.completeSave answers differs) := by
  unfold State.completeSave
  split
  next => exact hs
  next copy _ =>
    obtain ⟨legal, -, canonical⟩ := hs
    have stored : settingsRight { s with ss := { s.ss with
        saving := none, eeprom := savedMemory s.ss.eeprom copy differs } } :=
      ⟨legal, nofun, savedMemory_wf _ canonical copy differs⟩
    dsimp only
    split <;> exact settingsRight_congr (by simp [settingsView, State.timers]) stored

end Writes

/-! ## Requests -/

section Requests

variable {s t : State} {l : Line} {name : BitVec 32} {owner : State → State × Answer}

theorem settingsRight_answer (s : State) (l : Line) (name : BitVec 32) (a : Answer) (hs : settingsRight s) :
    settingsRight (s.answer l name a) := settingsRight_congr (by simp [settingsView, State.timers]) hs

theorem settingsRight_setReceiver (s : State) (l : Line) (x : Receiver) (hs : settingsRight s) :
    settingsRight (s.setReceiver l x) := settingsRight_congr (by simp [settingsView, State.timers]) hs

theorem settingsRight_takeRequest (hs : settingsRight s) (h : takeRequest s l name owner = .next t)
    (ho : settingsRight (owner s).1) : settingsRight t := by
  rw [takeRequest_eq] at h
  obtain rfl := Host.Outcome.next.inj h
  split
  · exact settingsRight_answer _ _ _ _ ho
  · exact hs

theorem settingsRight_takeRequest_same (hs : settingsRight s) (h : takeRequest s l name owner = .next t)
    (ho : settingsView (owner s).1 = settingsView s) : settingsRight t :=
  settingsRight_takeRequest hs h (settingsRight_congr ho hs)

theorem settingsRight_writeSetting (hs : settingsRight s) (h : writeSetting s name owner = .next t)
    (ho : settingsRight (owner s).1) : settingsRight t := by
  refine settingsRight_takeRequest hs h ?_
  split
  · exact hs
  · exact ho

theorem settingsRight_takePanel (hs : settingsRight s) (h : takePanel s name owner = .next t)
    (ho : settingsView (owner s.restartIdle).1 = settingsView s.restartIdle) : settingsRight t :=
  settingsRight_takeRequest_same hs h (ho.trans (by simp [settingsView, State.timers]))

theorem settingsRight_takeEvent {f : State → State} (hs : settingsRight s) (h : takeEvent s f = .next t)
    (hf : settingsRight (f s)) : settingsRight t := by
  rw [takeEvent_eq] at h
  obtain rfl := Host.Outcome.next.inj h
  split
  · exact hs
  · exact hf

theorem settingsRight_takeEvent_same {f : State → State} (hs : settingsRight s) (h : takeEvent s f = .next t)
    (hf : settingsView (f s) = settingsView s) : settingsRight t :=
  settingsRight_takeEvent hs h (settingsRight_congr hf hs)

end Requests

/-- Every request of the catalogue keeps the settings right (R168). -/
theorem settingsRight_runRequest (i : Instr) (s t : State) (hs : settingsRight s) (h : runRequest i s = .next t) :
    settingsRight t := by
  cases i
  all_goals dsimp only [runRequest] at h
  case pcap =>
    refine settingsRight_writeSetting hs h ?_
    split
    · exact hs
    · exact settingsRight_capacity hs _ _
  case rngw =>
    refine settingsRight_writeSetting hs h ?_
    split
    next stored => exact settingsRight_entry hs _ (entryLegal_of_rangeEntryOf stored)
    next => exact hs
  case rnga => exact settingsRight_writeSetting hs h (settingsRight_chooseRouting hs false)
  case genr => exact settingsRight_writeSetting hs h (settingsRight_chooseRouting hs true)
  case denw =>
    refine settingsRight_writeSetting hs h ?_
    split
    · split
      next stored => exact settingsRight_denoms hs _ (forall_of_allSome stored fun _ _ => denomLegal_of_denominationOf)
      next => exact hs
    · exact hs
  case tolw =>
    refine settingsRight_writeSetting hs h ?_
    split
    · exact hs
    · exact settingsRight_tolerances hs _ (tolLegal_toleranceOf _)
  case rost =>
    refine settingsRight_writeSetting hs h ?_
    split
    · exact hs
    split
    next => exact hs
    next stored => exact settingsRight_roster hs (rosterLegal_of_rosterOf stored)
  case polw =>
    refine settingsRight_writeSetting hs h ?_
    split
    next => exact hs
    next stored => exact settingsRight_policy hs (length_of_policyOf stored)
  case timw =>
    refine settingsRight_writeSetting hs h ?_
    split
    next => exact hs
    next stored => exact settingsRight_withTimers hs (timersLegal_of_timersOf stored)
  case save => exact settingsRight_writeSetting hs h (settingsRight_save hs)
  -- the other requests write no setting
  case advs =>
    refine settingsRight_takeRequest_same hs h ?_
    split
    · rfl
    · exact settingsView_advise ..
  case wdrw | retr => exact settingsRight_takeRequest_same hs h (settingsView_withdrawAdvice ..)
  case cnfm => exact settingsRight_takeRequest_same hs h (settingsView_confirm ..)
  case wndw =>
    refine settingsRight_takeRequest_same hs h ?_
    split
    · rfl
    · exact settingsView_afterPermit rfl
  case jamc =>
    refine settingsRight_takeRequest_same hs h ?_
    split
    · rfl
    split
    · rfl
    split
    · rfl
    split
    · rfl
    split
    · rfl
    · exact (settingsView_leaveJammed _).trans (settingsView_settleJam ..)
  case cred => exact settingsRight_takePanel hs h (settingsView_credential ..)
  case notg =>
    refine settingsRight_takePanel hs h ?_
    split
    · rfl
    split
    · rfl
    split
    · rfl
    split
    · rfl
    · exact (settingsView_afterStaging ..).trans (by simp [settingsView, State.timers])
  case prtv | pcls =>
    exact settingsRight_takePanel hs h (by (repeat' split) <;> simp [settingsView, State.timers, ok, refuse])
  case nopn | ncls | read | ftag | lcus | lsta | lpkt | pkts | ntot | stat | clrs | home | ackl | timwRead | time =>
    exact settingsRight_takeRequest_same hs h (by (repeat' split) <;> simp [settingsView, State.timers, ok, refuse])
  case wipe =>
    refine settingsRight_takeRequest_same hs h ?_
    split
    · rfl
    · exact (settingsView_retest _).trans (settingsView_wipe s)
  -- no other command is a request: it has no effect here
  all_goals exact Host.Outcome.next.inj h ▸ hs

/-! ## Events -/

/-- A plain event other than the end of a save leaves the settings, the copy and the EEPROM as they were. -/
theorem settingsRight_event {c : Instr} {s t : State} (plain : plainEvent c = true) (h : exec c s = .next t)
    (notSave : ∀ answers differs, c ≠ .saveCompletion answers differs) (hs : settingsRight s) : settingsRight t := by
  cases c
  case saveCompletion => exact absurd rfl (notSave _ _)
  case resetHold =>
    obtain rfl := Host.Outcome.next.inj h
    exact hs
  all_goals dsimp only [exec] at h
  case replyEnd =>
    refine settingsRight_takeEvent_same hs h ?_
    split <;> simp [settingsView, State.timers]
  case hatchScan =>
    refine settingsRight_takeEvent_same hs h ?_
    split
    · rfl
    · exact settingsView_hatchRead ..
  case encoderStep dir =>
    refine settingsRight_takeEvent_same hs h ?_
    dsimp only
    split
    · simp [settingsView, State.timers]
    · simp [settingsView, State.timers]
    · exact settingsView_moveStep ..
    · exact settingsView_searchStep ..
    · split <;> simp [settingsView, State.timers]
    · rfl
  case hatchShutSensor =>
    refine settingsRight_takeEvent_same hs h ?_
    split
    · exact settingsView_hatchShuts s
    · exact settingsView_hatchOpens s
  case graceExpiry => exact settingsRight_takeEvent_same hs h (settingsView_expireGrace ..)
  case handoverExpiry => exact settingsRight_takeEvent_same hs h (settingsView_expireHandover ..)
  case timeLockContact => exact settingsRight_takeEvent_same hs h (settingsView_afterPermit rfl)
  case tagReadComplete reader _ =>
    exact settingsRight_takeEvent_same hs h (by cases reader <;> simp [settingsView, State.timers, State.setReader])
  case drawerOpened | drawerShut | referenceMark =>
    refine settingsRight_takeEvent_same hs h ?_
    dsimp only
    (repeat' split) <;> simp [settingsView, State.timers]
  case frameGap | drawerTimerExpiry | drawerReadTaken | scaleReading | weighTimerExpiry | routeDecision | jobStart
    | jobCompletion | carouselServe | settleExpiry | arrivalTimerExpiry | homingTimerExpiry | unopenedTimerExpiry
    | tipTimerExpiry | lampExpiry | pairingExpiry | idleExpiry | clockTick =>
    refine settingsRight_takeEvent_same hs h ?_
    (repeat' split) <;> simp [settingsView, State.timers]
  -- every other command is a request or no plain event
  all_goals simp [plainEvent, Instr.encode] at plain

theorem settingsRight_tagWindowExpiry {s t : State} (hs : settingsRight s) (h : execTagWindowExpiry s = .next t) :
    settingsRight t := by
  obtain rfl | h := whenRunning_next h
  · exact hs
  split at h
  next =>
    split at h
    next => cases h
    next u opened =>
      obtain rfl := Host.Outcome.next.inj h
      exact settingsRight_congr ((settingsView_afterWindow u).trans (settingsView_openRecord opened)) hs
  next => exact Host.Outcome.next.inj h ▸ hs

theorem settingsRight_tipCompletion {s t : State} (hs : settingsRight s) (h : execTipCompletion s = .next t) :
    settingsRight t := by
  refine settingsRight_takeEvent_same hs h ?_
  split
  · exact settingsView_completeTip ..
  · rfl

/-- A restart loads settings in their ranges, with no save under way, and leaves the EEPROM canonical (R178, R182). -/
theorem settingsRight_restart {straps : Straps} {levels : Levels} {lost answers : Bool} {n : Nat} {s t : State}
    (hs : settingsRight s) (h : execRestart straps levels lost answers n s = .next t) : settingsRight t := by
  rw [execRestart_eq] at h
  obtain rfl := Host.Outcome.next.inj h
  obtain ⟨-, -, canonical⟩ := hs
  have loaded : settingsRight (restartLoaded s straps levels n answers) := by
    refine ⟨?_, nofun, eepromAfter_wf s.ss canonical n⟩
    rw [restartLoaded, State.loadImage, settings_install]
    exact settingsLegal_loadSettings ..
  refine settingsRight_congr ?_ loaded
  exact (settingsView_startUp _).trans ((settingsView_refill _).trans (settingsView_restore _ _))

/-! ## Every command -/

theorem exec_keeps_settingsRight {c : Instr} {s t : State} (hs : settingsRight s) (h : exec c s = .next t) :
    settingsRight t := by
  cases request : c.encode.isSome with
  | true => exact settingsRight_runRequest c s t hs (exec_eq_runRequest request s ▸ h)
  | false =>
    cases plain : plainEvent c with
    | true =>
      by_cases save : ∃ answers differs, c = .saveCompletion answers differs
      · obtain ⟨answers, differs, rfl⟩ := save
        exact settingsRight_takeEvent (f := fun s => s.completeSave answers differs) hs h
          (settingsRight_completeSave hs answers differs)
      · exact settingsRight_event plain h (fun answers differs e => save ⟨answers, differs, e⟩) hs
    | false =>
      cases c
      case tipCompletion => exact settingsRight_tipCompletion hs h
      case tagWindowExpiry => exact settingsRight_tagWindowExpiry hs h
      case restart => exact settingsRight_restart hs h
      case frameRejected =>
        exact frameRejected_keeps settingsRight_answer settingsRight_setReceiver settingsRight_runRequest hs h
      case lineByteReceived =>
        exact lineByteReceived_keeps settingsRight_answer settingsRight_setReceiver settingsRight_runRequest hs h
      -- every other command is a request or a plain event
      all_goals simp [plainEvent, request] at plain

/-- Settles O57: a write request stores what its rule keeps in range, a load does the same, a save takes a whole image, and
every other command leaves all of it as it was. -/
theorem stepKeepsTheSettings : Obligations.StepKeepsTheSettings := by
  intro s t hs h
  obtain rfl | ⟨c, rest, h⟩ := step_cases h
  · exact hs
  · exact exec_keeps_settingsRight (s := s.withPending rest) (settingsRight_congr (s := s) rfl hs) h

end Sys2Proof.SettingsProofs
end

section
/-! PROOF. The arithmetic of a weighing: the window of a breakdown check, the rounding of its deviation, and the limits of a
plausibility check (R60, R62 to R69). -/

namespace Sys2Proof.WeighingProofs

open Sys2Proof.Machine

/-- The edges of the window lie on the two sides of the expected mass, so a reading is not outside both (R65, R66). -/
theorem breakdownVerdict_eq (t : ToleranceSet) (lines : List CheckLine) (m : Nat) :
    breakdownVerdict t lines m =
      if (m : Int) * 100 < (expectedMass t lines : Int) - spread t lines - t.lower then .light
      else if expectedMass t lines + spread t lines + t.upper < m * 100 then .heavy else .inside := by
  have below : m * 100 < lowerEdge t lines ↔ (m : Int) * 100 < (expectedMass t lines : Int) - spread t lines - t.lower := by
    unfold lowerEdge
    omega
  unfold breakdownVerdict upperEdge
  by_cases light : m * 100 < lowerEdge t lines
  · have notHeavy : ¬ expectedMass t lines + spread t lines + t.upper < m * 100 := by omega
    rw [if_pos (below.mp light), decide_eq_true light, decide_eq_false notHeavy]
    rfl
  · rw [if_neg (light ∘ below.mpr), decide_eq_false light]
    by_cases heavy : expectedMass t lines + spread t lines + t.upper < m * 100 <;> simp [heavy, judge]

theorem breakdownVerdict_ne_wrong (t : ToleranceSet) (lines : List CheckLine) (m : Nat) :
    breakdownVerdict t lines m ≠ .wrong := by
  rw [breakdownVerdict_eq]
  split
  · simp
  split <;> simp

/-- Rounding half up adds one tenth where the rest is at least half of it (R67). -/
theorem storedDeviation_eq (d : Int) :
    storedDeviation d =
      let tenths : Int := if 2 * (d % 100) < 100 then d / 100 else d / 100 + 1
      if tenths < -32768 then -32768 else if 32767 < tenths then 32767 else tenths := by
  have rounded : (d + 50) / 100 = if 2 * (d % 100) < 100 then d / 100 else d / 100 + 1 := by
    split <;> omega
  unfold storedDeviation
  rw [rounded]
  dsimp only
  omega

/-- The row of R69's table that a mass falls in. -/
theorem check_plausibility (t : ToleranceSet) (m : Nat) {below above : Bool} (hb : decide (m < t.plausMin) = below)
    (ha : decide (t.plausMax < m) = above) : JobInputs.check { mass := some m, tol := t, advice := none } =
      { verdict := some (judge below above), deviation := none, valueSum := none, slipMismatch := false } := by
  simp [JobInputs.check, plausibilityVerdict, hb, ha]

/-- Settles O47: the breakdown check by its window and its rounding, the plausibility check by the rows of its table. -/
theorem weighingChecks : Obligations.WeighingChecks := by
  refine ⟨fun t lines declared m => ⟨?_, ?_, rfl⟩, fun t m => ⟨fun low high => ?_, fun low high => ?_, fun low high => ?_,
    fun low high => ?_, rfl⟩⟩
  · simp only [JobInputs.check, Option.map_some, breakdownVerdict_eq, storedDeviation_eq]
    rfl
  · simpa [JobInputs.check] using breakdownVerdict_ne_wrong t lines m
  · exact check_plausibility t m (decide_eq_false (by omega)) (decide_eq_false (by omega))
  · exact check_plausibility t m (decide_eq_true low) (decide_eq_false (by omega))
  · exact check_plausibility t m (decide_eq_false (by omega)) (decide_eq_true high)
  · exact check_plausibility t m (decide_eq_true low) (decide_eq_true high)

end Sys2Proof.WeighingProofs
end

section
/-! PROOF. The job queue: which job starts, what a completion writes, and a drop that waits in ROUTE for the place freed (R52 to
R59, R106). -/

namespace Sys2Proof.WeighingProofs

open Sys2Proof.Machine Sys2Proof.Safety Sys2Proof.CustodyProofs

/-! ## The record of a job -/

/-- No living record stands for a job: none holds its receipt and tag in one of the five states (R56). -/
def jobDead (s : State) (j : Job) : Prop :=
  ∀ x ∈ s.cr.records, x.receipt = j.receipt → x.tag ≠ j.tag ∨ ¬ (x.state ≠ .advised ∧ x.state ≠ .missing)

/-- A record is the living one that a job is for (R56). -/
def jobLiving (s : State) (j : Job) (r : Record) : Prop :=
  holds s r ∧ r.receipt = j.receipt ∧ r.tag = j.tag ∧ r.state ≠ .advised ∧ r.state ≠ .missing

theorem jobRecord_of_dead {s : State} {j : Job} (h : jobDead s j) : s.jobRecord j = none := by
  refine Option.eq_none_iff_forall_ne_some.mpr fun r hr => ?_
  obtain ⟨hmem, receipt, tag, custody⟩ := mem_of_jobRecord hr
  exact (h r hmem receipt).elim (absurd tag) (absurd (inCustody_iff.mp custody))

theorem jobRecord_of_living {s : State} {j : Job} {r : Record} (h : jobLiving s j r) : s.jobRecord j = some r := by
  obtain ⟨only, receipt, tag, custody⟩ := h
  unfold State.jobRecord
  rw [← receipt, record_of_holds only]
  simp [Option.filter, tag, inCustody_iff.mpr custody]

/-! ## The start -/

/-- Jobs without a living record are discarded, up to the first that has one (R56). -/
theorem startHead_fst (s : State) (q : List Job) : (s.startHead q).1 = q.dropWhile fun j => (s.jobRecord j).isNone := by
  induction q with
  | nil => rfl
  | cons j rest ih => cases e : s.jobRecord j <;> simp [State.startHead, e, ih]

theorem startHead_snd_isSome (s : State) (q : List Job) : (s.startHead q).2.isSome = true ↔ (s.startHead q).1 ≠ [] := by
  induction q with
  | nil => simp [State.startHead]
  | cons j rest ih => cases e : s.jobRecord j <;> simp [State.startHead, e, ih]

theorem startHead_of_dead {s : State} {gone : List Job} (h : ∀ j ∈ gone, jobDead s j) (q : List Job) :
    s.startHead (gone ++ q) = s.startHead q := by
  induction gone with
  | nil => rfl
  | cons j rest ih =>
    rw [List.cons_append, State.startHead, jobRecord_of_dead (h j (by simp))]
    exact ih fun x hx => h x (List.mem_cons_of_mem j hx)

theorem startHead_of_living {s : State} {j : Job} {r : Record} (h : jobLiving s j r) (rest : List Job) :
    s.startHead (j :: rest) = (j :: rest, some (s.jobInputs r)) := by
  rw [State.startHead, jobRecord_of_living h]

theorem startWau_of_working {s : State} (h : s.wau.working.isSome = true) : s.startWau = s := if_pos h

theorem startWau_of_idle {s : State} (h : s.wau.working = none) : s.startWau = { s with wau := { s.wau with
    queue := (s.startHead s.wau.queue).1, working := (s.startHead s.wau.queue).2 } } :=
  if_neg (by simp [h])

/-! ## The completion -/

/-- The result of the job at the head is written: its record is PENDING and no later job is for it (R58, R59). -/
def resultDue (s : State) (j : Job) (rest : List Job) : Bool :=
  ((s.jobRecord j).map fun r => r.verdict == some .pending).getD false && !rest.contains j

/-- The records after the completion of the job j at the head (R59). -/
def recordsFinished (s : State) (inputs : JobInputs) (j : Job) (rest : List Job) : List Record :=
  if resultDue s j rest then updateReceipt s.cr.records j.receipt fun r => r.withResult inputs.check else s.cr.records

theorem finishHead_eq {s : State} {inputs : JobInputs} {j : Job} {rest : List Job} (working : s.wau.working = some inputs)
    (queue : s.wau.queue = j :: rest) : s.finishHead =
      { s with cr := { s.cr with records := recordsFinished s inputs j rest }
               wau := { s.wau with queue := rest, working := none } } := by
  unfold State.finishHead recordsFinished resultDue
  rw [working, queue]
  dsimp only
  generalize (Option.getD _ false && _) = due
  cases due <;> rfl

theorem resultDue_of_living {s : State} {j : Job} {r : Record} {rest : List Job} (h : jobLiving s j r)
    (pending : r.verdict = some .pending) (last : j ∉ rest) : resultDue s j rest = true := by
  simp [resultDue, jobRecord_of_living h, pending, last]

theorem not_resultDue {s : State} {j : Job} {rest : List Job}
    (h : jobDead s j ∨ j ∈ rest ∨ ∃ r, jobLiving s j r ∧ r.verdict ≠ some .pending) : resultDue s j rest = false := by
  obtain dead | later | ⟨r, living, settled⟩ := h
  · simp [resultDue, jobRecord_of_dead dead]
  · simp [resultDue, later]
  · simp [resultDue, jobRecord_of_living living, settled]

/-! ## The waiting drop -/

theorem takeRoute_of_phase {s : State} (h : s.intake.phase ≠ .route) : s.takeRoute = s := if_neg fun e => h e.1

/-- What a freed place lets happen, as the row of the route decision has it (R54, R106, log 5). -/
theorem next_takeRoute {s t : State} (running : t.resetHeld = false) (intake : t.intake = s.intake) :
    Host.Outcome.next t.takeRoute = if s.intake.phase = .route then exec .routeDecision t else (.next t : Result) := by
  split
  · exact (takeEvent_running running State.takeRoute).symm
  next h => rw [takeRoute_of_phase (intake ▸ h)]

theorem exec_jobStart {s : State} (running : s.resetHeld = false) :
    exec .jobStart s = if s.intake.phase = .route then exec .routeDecision s.startWau else .next s.startWau := by
  rw [← next_takeRoute (by simpa using running) (by simp)]
  exact takeEvent_running running State.workOn

theorem exec_jobCompletion {s : State} {t : State} (running : s.resetHeld = false) (working : s.wau.working.isSome = true)
    (finished : s.finishHead = t) :
    exec .jobCompletion s = if s.intake.phase = .route then exec .routeDecision t.startWau else .next t.startWau := by
  rw [← next_takeRoute (s := s) (by simpa [← finished] using running) (by simp [← finished])]
  refine (takeEvent_running running _).trans ?_
  rw [if_pos working, finished]
  rfl

/-- Settles O46: the start discards the jobs before the first with a living record, the completion writes or discards the
result, and the drop that waits is routed. -/
theorem jobsStartAndComplete : Obligations.JobsStartAndComplete := by
  intro s running
  dsimp only
  refine ⟨fun working => ?_, fun idle dead => ?_, fun gone j rest r idle queue dead living => ?_, fun idle => ?_,
    fun inputs j rest working queue => ⟨fun r living pending last => ?_, fun unwritten => ?_⟩⟩
  · rw [exec_jobStart running, startWau_of_working working]
  · have none : s.startHead s.wau.queue = ([], none) := by
      rw [← List.append_nil s.wau.queue, startHead_of_dead dead]
      rfl
    rw [exec_jobStart running, startWau_of_idle idle, none]
  · rw [exec_jobStart running, startWau_of_idle idle, queue, startHead_of_dead dead, startHead_of_living living]
    rfl
  · refine (takeEvent_running running _).trans ?_
    rw [if_neg (by simp [idle])]
  · refine exec_jobCompletion running (by simp [working]) ?_
    rw [finishHead_eq working queue, recordsFinished, resultDue_of_living living pending last]
    obtain ⟨-, receipt, -⟩ := living
    rw [← receipt]
    rfl
  · refine exec_jobCompletion running (by simp [working]) ?_
    rw [finishHead_eq working queue, recordsFinished, not_resultDue unwritten]
    rfl

end Sys2Proof.WeighingProofs
end

section
/-! PROOF. DENW: the entries carried, read as the entries that are stored, and the places that they go to (R46, R47). -/

namespace Sys2Proof.SettingsProofs

open Sys2Proof.Machine Sys2Proof.Safety Sys2Proof.CustodyProofs

theorem denomOf_eq_some_iff {b : Byte} {n : Fin 16} : denomOf b = some n ↔ b.toNat = n.val := by
  unfold denomOf
  split
  · simp [Fin.ext_iff]
  · simp only [reduceCtorEq, false_iff]
    omega

/-- The denomination entry that is stored (R46). -/
def storedDenom (f : DenomField) : Denomination := { face := f.face.toNat, mass := f.mass.toNat, spread := f.spread.toNat }

theorem denominationOf_eq_some_iff {f : DenomField} {d : Denomination} :
    denominationOf f = some d ↔ f.face.toNat ≤ 1000000 ∧ d = storedDenom f := by
  unfold denominationOf
  split
  next good => simp [good, storedDenom, eq_comm]
  next bad => simp [bad]

/-- Entries that are all in range are all stored (R46). -/
theorem denominations_of_good {l : List DenomField} (good : ∀ f ∈ l, f.face.toNat ≤ 1000000) :
    allSome (l.map denominationOf) = some (l.map storedDenom) := by
  rw [allSome_eq_some_iff, List.map_map]
  exact List.map_congr_left fun f hf => denominationOf_eq_some_iff.mpr ⟨good f hf, rfl⟩

/-- One entry out of range refuses the whole (R46). -/
theorem denominations_of_bad {l : List DenomField} {f : DenomField} (hf : f ∈ l) (bad : 1000000 < f.face.toNat) :
    allSome (l.map denominationOf) = none := by
  refine Option.eq_none_iff_forall_ne_some.mpr fun ds read => ?_
  have mem : denominationOf f ∈ ds.map some := allSome_eq_some_iff.mp read ▸ List.mem_map_of_mem hf
  obtain ⟨d, -, e⟩ := List.mem_map.mp mem
  have := (denominationOf_eq_some_iff.mp e.symm).1
  omega

theorem bytes_storedDenom (f : DenomField) :
    (storedDenom f).bytes = be 3 f.face.toNat ++ be 2 f.mass.toNat ++ [f.spread] := by
  simp [Denomination.bytes, storedDenom, byte_of_toNat rfl]

/-- The entry at place k after up to 16 entries have gone to the places from i on: the one whose distance from i is that of
k, going from 15 to 0, or the entry that stood there (R47). -/
theorem writeDenoms_getElem (v : Vector Denomination 16) (i k : Fin 16) (ds : List Denomination) (h : ds.length ≤ 16) :
    (writeDenoms v i ds)[k] = (ds[(k.val + 16 - i.val) % 16]?).getD v[k] := by
  induction ds generalizing v i with
  | nil => rfl
  | cons d rest ih =>
    rw [List.length_cons] at h
    have next : (i + 1).val = (i.val + 1) % 16 := rfl
    rw [writeDenoms, ih _ _ (by omega)]
    by_cases e : i = k
    · subst e
      have last : (i.val + 16 - (i + 1).val) % 16 = 15 := by omega
      have first : (i.val + 16 - i.val) % 16 = 0 := by omega
      rw [last, first, List.getElem?_eq_none (by omega)]
      simp
    · have distance : (k.val + 16 - i.val) % 16 = (k.val + 16 - (i + 1).val) % 16 + 1 := by
        have := Fin.val_ne_of_ne e
        omega
      rw [distance, List.getElem?_cons_succ]
      simp [Vector.getElem_set_ne, Fin.val_ne_of_ne e]

/-- Settles O22: the fields are refused or read as entries, which go round the table from the start index. -/
theorem denwStoresTheEntries : Obligations.DenwStoresTheEntries := by
  intro start entries s idle free
  simp only [exec, execDenw, writeSetting_free idle free]
  refine ⟨fun bad => ?_, fun good => ?_⟩
  · split
    next length =>
      obtain bad | bad | bad | ⟨f, hf, bad⟩ := bad
      · have none : denomOf start = none := dif_neg (by omega)
        simp [none, refuse]
      · omega
      · omega
      · cases denomOf start <;> simp [denominations_of_bad hf bad, refuse]
    next => rfl
  · simp only [not_or, Nat.not_lt, not_exists, not_and] at good
    obtain ⟨index, nonempty, sixteen, faces⟩ := good
    obtain ⟨i, hi⟩ : ∃ i : Fin 16, start.toNat = i.val := ⟨⟨start.toNat, by omega⟩, rfl⟩
    rw [if_pos ⟨by omega, sixteen⟩, denomOf_eq_some_iff.mpr hi, denominations_of_good faces]
    have stored : writeDenoms s.wau.denoms i (entries.map storedDenom) = Vector.ofFn fun k : Fin 16 =>
        match entries[(k.val + 16 - start.toNat) % 16]? with
        | some e => { face := e.face.toNat, mass := e.mass.toNat, spread := e.spread.toNat }
        | none => s.wau.denoms[k] := by
      ext1 k hk
      refine (writeDenoms_getElem s.wau.denoms i ⟨k, hk⟩ _ (by simpa using sixteen)).trans ?_
      rw [List.getElem?_map, Vector.getElem_ofFn, hi]
      cases entries[(k + 16 - i.val) % 16]? <;> rfl
    have bytes : (entries.map storedDenom).flatMap Denomination.bytes =
        entries.flatMap fun e => be 3 e.face.toNat ++ be 2 e.mass.toNat ++ [e.spread] := by
      rw [List.flatMap_map]
      exact congrArg (List.flatMap · entries) (funext bytes_storedDenom)
    simp only [ok, stored, bytes, List.length_map, byte_of_toNat hi]
    rfl

end Sys2Proof.SettingsProofs
end

section
/-! PROOF. What the invariant of the hold, the room and the queues reads, and the changes that leave it right: no more units, the
same jobs, no new request, no new PENDING record (R52 to R54, R71, R74, R83, R94). -/

namespace Sys2Proof.QueueProofs

open Sys2Proof.Machine Sys2Proof.Safety Sys2Proof.CustodyProofs

/-! ## The invariant, part by part -/

/-- POSITION and TIP are one to the hold (R94). -/
def stageOf : Phase → Phase
  | .tip => .position
  | x => x

theorem stageOf_ne_tip (x : Phase) : stageOf x ≠ .tip := by cases x <;> simp [stageOf]

theorem stageOf_eq_position {x : Phase} : stageOf x = .position ↔ x = .position ∨ x = .tip := by
  cases x <;> simp [stageOf]

theorem stageOf_eq_iff {x y : Phase} (h1 : y ≠ .position) (h2 : y ≠ .tip) : stageOf x = y ↔ x = y := by
  cases x
  case tip => exact ⟨fun e => absurd e.symm h1, fun e => absurd e.symm h2⟩
  all_goals rfl

/-- The hold that goes with the sequencer's state; in POSITION and TIP it is of the size class of every record in INTAKE
(R94). -/
def holdOpen (s : State) : Prop :=
  match stageOf s.intake.phase with
  | .closed | .shut | .jammed => s.pcc.hold = none
  | .ready | .weigh | .route => s.pcc.hold = some ⟨0, 4⟩
  | .loading | .identify => s.pcc.hold = some ⟨0, 4⟩ ∨ s.pcc.hold = none
  | .position | .tip => ∃ p n, s.intake.readings.chosen = some p ∧ s.pcc.hold = some ⟨p, n⟩ ∧
      ∀ r ∈ s.cr.records, r.state = .intake → r.size = some n

/-- Every PENDING record has its job (R53). -/
def pendingsQueued (s : State) : Prop := ∀ r ∈ s.cr.records, r.verdict = some .pending → jobOf r ∈ s.wau.queue

/-- The job queue but for the drop that waits in ROUTE (R52, R53). -/
def jobsOpen (s : State) : Prop := s.wau.queue.length ≤ 6 ∧ worksOnQueue s ∧ pendingsQueued s

/-- A drop waits in ROUTE only while the job queue is full (R54). -/
def routeFull (s : State) : Prop := s.intake.phase = .route → s.wau.queue.length = 6

/-- The room and the two queues, whatever the sequencer does. -/
def stockRight (s : State) : Prop := roomRight s ∧ jobsOpen s ∧ requestsRight s

/-- The whole invariant, said without the drop's record. -/
def settled (s : State) : Prop := holdOpen s ∧ stockRight s ∧ routeFull s

theorem stock_of_settled {s : State} (hs : settled s) : stockRight s := hs.2.1

theorem holdRight_iff {s : State} (hd : dropRight s) : holdRight s ↔ holdOpen s := by
  have drop : hasRecord s.intake.phase = true → ∃ r, inIntake s r := fun h => (dropRight_iff.mp hd).1.2.1 h
  have sizes : hasRecord s.intake.phase = true →
      ((∃ r p n, inIntake s r ∧ s.intake.readings.chosen = some p ∧ r.size = some n ∧ s.pcc.hold = some ⟨p, n⟩) ↔
        ∃ p n, s.intake.readings.chosen = some p ∧ s.pcc.hold = some ⟨p, n⟩ ∧
          ∀ r ∈ s.cr.records, r.state = .intake → r.size = some n) := fun here => by
    constructor
    · rintro ⟨r, p, n, ⟨-, -, only⟩, chosen, size, hold⟩
      exact ⟨p, n, chosen, hold, fun x hx hst => only x hx hst ▸ size⟩
    · rintro ⟨p, n, chosen, hold, size⟩
      obtain ⟨r, hr⟩ := drop here
      exact ⟨r, p, n, hr, chosen, size r hr.1.1 hr.2.1, hold⟩
  unfold holdRight holdOpen
  cases e : s.intake.phase with
  | position | tip => exact sizes (by rw [e]; rfl)
  | closed | shut | ready | loading | identify | weigh | route | jammed => exact Iff.rfl

theorem queuesRight_iff {s : State} (hd : dropRight s) : queuesRight s ↔ settled s := by
  unfold queuesRight settled stockRight jobsRight
  rw [holdRight_iff hd]
  constructor
  · rintro ⟨hold, room, ⟨length, works, pendings, full⟩, requests⟩
    exact ⟨hold, ⟨room, ⟨length, works, pendings⟩, requests⟩, full⟩
  · rintro ⟨hold, ⟨room, ⟨length, works, pendings⟩, requests⟩, full⟩
    exact ⟨hold, room, ⟨length, works, pendings, full⟩, requests⟩

/-! ## The room of a pocket -/

theorem heldUnits_of_none {c : Carousel} (h : c.hold = none) (p : Fin 21) : c.heldUnits p = 0 := by
  simp [Carousel.heldUnits, h]

theorem heldUnits_le {c c' : Carousel} (h : c'.hold = c.hold ∨ c'.hold = none) (p : Fin 21) :
    c'.heldUnits p ≤ c.heldUnits p := by
  obtain h | h := h
  · simp [Carousel.heldUnits, h]
  · simp [heldUnits_of_none h]

/-- A bag that fits, or that has no size class, leaves at most 24 units (R71, R73). -/
theorem used_le_of_fits {s : State} {p : Fin 21} {size : Option Nat} (room : roomRight s)
    (fits : s.pcc.fits p size = true) : s.pcc.pockets[p].used + s.pcc.heldUnits p + size.getD 0 ≤ 24 := by
  obtain ⟨capacity, units⟩ := room.2 p
  cases size with
  | none => exact units
  | some n =>
    obtain ⟨-, free⟩ : s.pcc.classOf p ≠ .outOfService ∧ n ≤ s.pcc.freeUnits p := by simpa [Carousel.fits] using fits
    unfold Carousel.freeUnits at free
    rw [Option.getD_some]
    omega

/-- A hold for which there is room (R74). -/
theorem roomRight_of_hold {s t : State} {h : Hold} (pockets : t.pcc.pockets = s.pcc.pockets) (hold : t.pcc.hold = some h)
    (fits : s.pcc.pockets[h.pocket].used + h.units ≤ 24) (room : roomRight s) : roomRight t := by
  obtain ⟨zero, all⟩ := room
  unfold roomRight
  rw [pockets]
  refine ⟨zero, fun p => ⟨(all p).1, ?_⟩⟩
  have free := (all p).2
  unfold Carousel.heldUnits
  rw [hold]
  dsimp only
  split
  next e => exact e ▸ fits
  next => omega

theorem roomRight_congr {s t : State} (h : t.pcc = s.pcc) (hs : roomRight s) : roomRight t := by
  unfold roomRight
  rwa [h]

theorem requestsRight_congr {s t : State} (h : t.pcc = s.pcc) (hs : requestsRight s) : requestsRight t := by
  unfold requestsRight
  rwa [h]

/-! ## Changes that leave the parts right -/

/-- Every PENDING record was PENDING before, with the same job. -/
def PendingsFrom (s t : State) : Prop :=
  ∀ r' ∈ t.cr.records, r'.verdict = some .pending → ∃ r ∈ s.cr.records, r.verdict = some .pending ∧ jobOf r = jobOf r'

/-- Every record in INTAKE was there before, with the same size class. -/
def IntakesFrom (s t : State) : Prop :=
  ∀ r' ∈ t.cr.records, r'.state = .intake → ∃ r ∈ s.cr.records, r.state = .intake ∧ r.size = r'.size

/-- A change of one record that makes it neither PENDING nor INTAKE, and keeps its job and its size class. -/
structure Quiet (r r' : Record) : Prop where
  job : jobOf r' = jobOf r
  pending : r'.verdict = some .pending → r.verdict = some .pending
  intake : r'.state = .intake → r.state = .intake
  size : r'.size = r.size

theorem Quiet.refl (r : Record) : Quiet r r := ⟨rfl, id, id, rfl⟩

/-- Each record after is one of before, changed quietly. -/
def RecordsQuiet (s t : State) : Prop := ∀ r' ∈ t.cr.records, ∃ r ∈ s.cr.records, Quiet r r'

theorem RecordsQuiet.pendings {s t : State} (h : RecordsQuiet s t) : PendingsFrom s t := fun r' hr' pending =>
  let ⟨r, hr, quiet⟩ := h r' hr'
  ⟨r, hr, quiet.pending pending, quiet.job.symm⟩

theorem RecordsQuiet.intakes {s t : State} (h : RecordsQuiet s t) : IntakesFrom s t := fun r' hr' intake =>
  let ⟨r, hr, quiet⟩ := h r' hr'
  ⟨r, hr, quiet.intake intake, quiet.size.symm⟩

theorem RecordsQuiet.of_subset {s t : State} (h : ∀ r ∈ t.cr.records, r ∈ s.cr.records) : RecordsQuiet s t :=
  fun r hr => ⟨r, h r hr, .refl r⟩

theorem RecordsQuiet.of_eq {s t : State} (h : t.cr.records = s.cr.records) : RecordsQuiet s t := .of_subset fun _ hr => h ▸ hr

theorem RecordsQuiet.of_map {s t : State} {f : Record → Record} (h : t.cr.records = s.cr.records.map f)
    (hf : ∀ r, Quiet r (f r)) : RecordsQuiet s t := by
  intro r' hr'
  rw [h] at hr'
  obtain ⟨r, hr, rfl⟩ := List.mem_map.mp hr'
  exact ⟨r, hr, hf r⟩

theorem RecordsQuiet.of_update {s t : State} {n : Nat} {f : Record → Record} (h : t.cr.records = updateReceipt s.cr.records n f)
    (hf : ∀ r, Quiet r (f r)) : RecordsQuiet s t :=
  .of_map h fun r => by split; exacts [hf r, .refl r]

/-- The room and the queues have no more in them than before. -/
structure StockKept (s t : State) : Prop where
  capacities : t.pcc.pockets.map Pocket.capacity = s.pcc.pockets.map Pocket.capacity
  used : ∀ p : Fin 21, t.pcc.pockets[p].used ≤ s.pcc.pockets[p].used
  holds : t.pcc.hold = s.pcc.hold ∨ t.pcc.hold = none
  jobs : t.wau.queue = s.wau.queue
  working : t.wau.working = s.wau.working
  requests : (t.pcc.queue.map PosRequest.source).Sublist (s.pcc.queue.map PosRequest.source)
  pendings : PendingsFrom s t

theorem capacity_of_map {v w : Vector Pocket 21} (h : w.map Pocket.capacity = v.map Pocket.capacity) (p : Fin 21) :
    w[p].capacity = v[p].capacity := by
  have place := congrArg (fun x : Vector Nat 21 => x[p]) h
  simpa only [Fin.getElem_fin, Vector.getElem_map] using place

theorem StockKept.room {s t : State} (h : StockKept s t) (hs : roomRight s) : roomRight t := by
  obtain ⟨zero, all⟩ := hs
  refine ⟨(capacity_of_map h.capacities 0).trans zero, fun p => ⟨(capacity_of_map h.capacities p).trans_le (all p).1, ?_⟩⟩
  have used := h.used p
  have held := heldUnits_le h.holds p
  have before := (all p).2
  omega

theorem StockKept.jobsOpen {s t : State} (h : StockKept s t) (hs : jobsOpen s) : jobsOpen t := by
  obtain ⟨length, works, pendings⟩ := hs
  unfold QueueProofs.jobsOpen worksOnQueue pendingsQueued
  rw [h.jobs, h.working]
  refine ⟨length, works, fun r' hr' pending => ?_⟩
  obtain ⟨r, hr, hp, e⟩ := h.pendings r' hr' pending
  exact e ▸ pendings r hr hp

/-- A queue whose sources are among those before holds no more requests of a source (R83). -/
theorem requestsRight_of_sublist {s t : State}
    (h : (t.pcc.queue.map PosRequest.source).Sublist (s.pcc.queue.map PosRequest.source)) (hs : requestsRight s) :
    requestsRight t := by
  have count : ∀ x : Source, t.pcc.queue.countP (fun q => q.source == x) ≤ s.pcc.queue.countP fun q => q.source == x :=
    fun x => by simpa [List.countP_map, Function.comp_def] using h.countP_le (p := (· == x))
  exact ⟨(count .intake).trans hs.1, (count .release).trans hs.2⟩

theorem StockKept.stock {s t : State} (h : StockKept s t) (hs : stockRight s) : stockRight t :=
  let ⟨room, jobs, requests⟩ := hs
  ⟨h.room room, h.jobsOpen jobs, requestsRight_of_sublist h.requests requests⟩

/-- Nothing that the invariant reads changes to its harm: the stock is kept, the sequencer stays in its stage with its hold,
and no record comes into INTAKE while the hold is the bag's. -/
structure Calm (s t : State) : Prop extends StockKept s t where
  stage : stageOf t.intake.phase = stageOf s.intake.phase
  chosen : t.intake.readings.chosen = s.intake.readings.chosen
  hold : t.pcc.hold = s.pcc.hold
  intakes : stageOf s.intake.phase = .position → IntakesFrom s t

/-- The hold stays the sequencer's while its stage, its pocket and the record's size class do. -/
theorem holdOpen_of_intakes {s t : State} (stage : stageOf t.intake.phase = stageOf s.intake.phase)
    (chosen : t.intake.readings.chosen = s.intake.readings.chosen) (hold : t.pcc.hold = s.pcc.hold)
    (intakes : stageOf s.intake.phase = .position → IntakesFrom s t) (hs : holdOpen s) : holdOpen t := by
  unfold holdOpen at *
  rw [stage, chosen, hold]
  cases e : stageOf s.intake.phase with
  | position =>
    rw [e] at hs
    obtain ⟨p, n, chosen, hold, size⟩ := hs
    refine ⟨p, n, chosen, hold, fun r' hr' hst => ?_⟩
    obtain ⟨r, hr, hrs, hsize⟩ := intakes e r' hr' hst
    exact hsize ▸ size r hr hrs
  | tip => exact absurd e (stageOf_ne_tip _)
  | closed | shut | ready | loading | identify | weigh | route | jammed => rwa [e] at hs

theorem Calm.holdOpen {s t : State} (h : Calm s t) (hs : holdOpen s) : holdOpen t :=
  holdOpen_of_intakes h.stage h.chosen h.hold h.intakes hs

theorem Calm.settled {s t : State} (h : Calm s t) (hs : settled s) : settled t := by
  obtain ⟨hold, stock, full⟩ := hs
  refine ⟨h.holdOpen hold, h.stock stock, fun route => ?_⟩
  have before : s.intake.phase = .route :=
    (stageOf_eq_iff (by simp) (by simp)).mp (h.stage.symm.trans ((stageOf_eq_iff (by simp) (by simp)).mpr route))
  rw [h.jobs]
  exact full before

/-! ## Views -/

/-- What the room and the queues read. -/
def stockView (s : State) : List Record × Vector Pocket 21 × Option Hold × List PosRequest × List Job × Option JobInputs :=
  (s.cr.records, s.pcc.pockets, s.pcc.hold, s.pcc.queue, s.wau.queue, s.wau.working)

theorem StockKept.same {s t : State} (h : stockView t = stockView s) : StockKept s t := by
  simp only [stockView, Prod.mk.injEq] at h
  obtain ⟨records, pockets, hold, queue, jobs, working⟩ := h
  exact ⟨by rw [pockets], fun p => by rw [pockets], .inl hold, jobs, working, by rw [queue],
    (RecordsQuiet.of_eq records).pendings⟩

/-- The stock is kept with the sequencer as it is. -/
theorem Calm.of_stock {s t : State} (h : StockKept s t) (phase : t.intake.phase = s.intake.phase)
    (chosen : t.intake.readings.chosen = s.intake.readings.chosen) (hold : t.pcc.hold = s.pcc.hold)
    (intakes : IntakesFrom s t) : Calm s t :=
  { h with stage := by rw [phase], chosen, hold, intakes := fun _ => intakes }

/-- What the invariant reads. -/
def queuesView (s : State) : Phase × Option (Fin 21) × (List Record × Vector Pocket 21 × Option Hold × List PosRequest ×
    List Job × Option JobInputs) :=
  (s.intake.phase, s.intake.readings.chosen, stockView s)

theorem Calm.same {s t : State} (h : queuesView t = queuesView s) : Calm s t := by
  obtain ⟨phase, h⟩ := Prod.mk.inj h
  obtain ⟨chosen, stock⟩ := Prod.mk.inj h
  have records : t.cr.records = s.cr.records := congrArg Prod.fst stock
  have hold : t.pcc.hold = s.pcc.hold := congrArg (fun v => v.2.2.1) stock
  exact .of_stock (.same stock) phase chosen hold (RecordsQuiet.of_eq records).intakes

/-- Quiet changes of the records and of the pockets, and nothing else that the invariant reads. -/
theorem Calm.of_records {s t : State} (records : RecordsQuiet s t)
    (capacities : t.pcc.pockets.map Pocket.capacity = s.pcc.pockets.map Pocket.capacity)
    (used : ∀ p : Fin 21, t.pcc.pockets[p].used ≤ s.pcc.pockets[p].used)
    (pcc : t.pcc.hold = s.pcc.hold ∧ t.pcc.queue = s.pcc.queue) (wau : t.wau = s.wau) (intake : t.intake = s.intake) :
    Calm s t := by
  obtain ⟨hold, queue⟩ := pcc
  exact .of_stock ⟨capacities, used, .inl hold, by rw [wau], by rw [wau], by rw [queue], records.pendings⟩
    (by rw [intake]) (by rw [intake]) hold records.intakes

/-! ## What an operation keeps -/

/-- The sequencer's side and the invariant stay right. -/
def QueuesKept (s t : State) : Prop := SeqKept s t ∧ (seqRight s → settled s → settled t)

theorem QueuesKept.refl (s : State) : QueuesKept s s := ⟨.refl s, fun _ => id⟩

theorem QueuesKept.trans {s t u : State} (h : QueuesKept s t) (h' : QueuesKept t u) : QueuesKept s u :=
  ⟨h.1.trans h'.1, fun seq hs => h'.2 (h.1 seq).1 (h.2 seq hs)⟩

theorem QueuesKept.of_calm {s t : State} (seq : SeqKept s t) (h : Calm s t) : QueuesKept s t := ⟨seq, fun _ => h.settled⟩

/-- Nothing that the invariant or the sequencer's side reads has changed. -/
theorem QueuesKept.same {s t : State} (seq : seqView t = seqView s) (h : queuesView t = queuesView s) : QueuesKept s t :=
  .of_calm (.same seq) (.same h)

end Sys2Proof.QueueProofs
end

section
/-! PROOF. The hold, the room and the queues under the operations of the chute, the arbiter, the drum and the session (R74, R83 to
R97, R110, R117, R142). -/

namespace Sys2Proof.QueueProofs

open Sys2Proof.Machine Sys2Proof.Safety Sys2Proof.CustodyProofs

/-! ## The phases without a bag's hold -/

theorem settled_of_unheld {s : State} (h : stockRight s) (hold : s.pcc.hold = none)
    (phase : s.intake.phase = .closed ∨ s.intake.phase = .shut ∨ s.intake.phase = .jammed) : settled s := by
  obtain e | e | e := phase <;> exact ⟨by simp [holdOpen, stageOf, e, hold], h, by simp [routeFull, e]⟩

theorem settled_of_held {s : State} (h : stockRight s) (hold : s.pcc.hold = some ⟨0, 4⟩)
    (phase : s.intake.phase = .ready ∨ s.intake.phase = .weigh) : settled s := by
  obtain e | e := phase <;> exact ⟨by simp [holdOpen, stageOf, e, hold], h, by simp [routeFull, e]⟩

theorem settled_of_entered {s : State} (h : stockRight s) (hold : s.pcc.hold = some ⟨0, 4⟩ ∨ s.pcc.hold = none)
    (phase : s.intake.phase = .loading ∨ s.intake.phase = .identify) : settled s := by
  obtain e | e := phase <;> exact ⟨by simpa [holdOpen, stageOf, e] using hold, h, by simp [routeFull, e]⟩

/-- From LOADING to the end of the tag window the hold is the one of 4 units of pocket 0, or was refused (R74, R117). -/
theorem hold_of_entered {s : State} (hs : settled s) (phase : s.intake.phase = .loading ∨ s.intake.phase = .identify) :
    s.pcc.hold = some ⟨0, 4⟩ ∨ s.pcc.hold = none := by
  have hold := hs.1
  obtain e | e := phase <;> simpa [holdOpen, stageOf, e] using hold

/-- What a restart left to take up waits in CLOSED or SHUT (R117). -/
theorem waits_of_seqRight {s : State} (seq : seqRight s) (takeUp : s.intake.takeUp = true) :
    s.intake.phase = .closed ∨ s.intake.phase = .shut :=
  let ⟨⟨_, _, _, waits⟩, _⟩ := seq
  waits takeUp

/-! ## The chute -/

/-- The hold of 4 units of pocket 0 where they are free (R74). -/
theorem stockRight_setHold {s : State} (free : s.pcc.pockets[(0 : Fin 21)].used + 4 ≤ 24) (h : stockRight s) :
    stockRight (s.setHold (some ⟨0, 4⟩)) :=
  ⟨roomRight_of_hold (s := s) rfl rfl free h.1, h.2⟩

theorem used_of_freeUnits {s : State} (room : roomRight s) (free : 4 ≤ s.pcc.freeUnits 0) :
    s.pcc.pockets[(0 : Fin 21)].used + 4 ≤ 24 := by
  have capacity := (room.2 0).1
  unfold Carousel.freeUnits at free
  omega

/-- The chute's test asks for 4 free units of pocket 0, or for the hold of them (R95). -/
theorem used_of_conditions {s : State} (room : roomRight s) (conditions : s.chuteConditions = true) :
    s.pcc.pockets[(0 : Fin 21)].used + 4 ≤ 24 := by
  obtain ⟨-, free, -⟩ := (chuteConditions_iff s).mp conditions
  obtain ⟨capacity, units⟩ := room.2 0
  obtain hold | free := free
  · have held : s.pcc.heldUnits 0 = 4 := by simp [Carousel.heldUnits, hold]
    omega
  · exact (Nat.add_le_add_right (Nat.le_add_right _ _) 4).trans (Nat.le_trans free capacity)

theorem stockKept_release (s : State) : StockKept s (s.setHold none) where
  capacities := rfl
  used _ := le_rfl
  holds := .inr rfl
  jobs := rfl
  working := rfl
  requests := .refl _
  pendings := (RecordsQuiet.of_eq rfl).pendings

theorem stock_congr {s t : State} (h : stockView t = stockView s) (hs : stockRight s) : stockRight t :=
  (StockKept.same h).stock hs

/-- The test of the chute grants the hold only where its units are free, or were held already (R95). -/
theorem settled_testChute {s : State} (h : stockRight s) : settled s.testChute := by
  have released := (stockKept_release s).stock h
  obtain ⟨-, e⟩ | ⟨-, conditions, e⟩ | ⟨-, -, e⟩ := testChute_cases s
  · rw [e]
    exact settled_of_unheld (stock_congr (s := s.setHold none) rfl released) rfl (.inl rfl)
  · have free := used_of_conditions h.1 conditions
    rw [e]
    exact settled_of_held (stock_congr (s := s.setHold (some ⟨0, 4⟩)) rfl (stockRight_setHold free h)) rfl (.inl rfl)
  · rw [e]
    exact settled_of_unheld (stock_congr (s := s.setHold none) (by simp [stockView]) released) (by simp) (.inr (.inl (by simp)))

theorem queuesKept_retest (s : State) : QueuesKept s s.retest := by
  refine ⟨seqKept_retest s, fun _ hs => ?_⟩
  obtain e | e := retest_cases s
  · rwa [e]
  · exact e ▸ settled_testChute (stock_of_settled hs)

theorem askHold_cases (s : State) :
    s.askHold = s ∨ (4 ≤ s.pcc.freeUnits 0 ∧ s.askHold = s.setHold (some ⟨0, 4⟩)) := by
  unfold State.askHold
  split
  next free => exact .inr ⟨free, rfl⟩
  next => exact .inl rfl

/-- The hold asked for at a take-up is granted where its units are free, and refused otherwise (R74, R117). -/
theorem stockRight_askHold {s : State} (h : stockRight s) (unheld : s.pcc.hold = none) :
    stockRight s.askHold ∧ (s.askHold.pcc.hold = some ⟨0, 4⟩ ∨ s.askHold.pcc.hold = none) := by
  obtain e | ⟨free, e⟩ := askHold_cases s <;> rw [e]
  · exact ⟨h, .inr unheld⟩
  · exact ⟨stockRight_setHold (used_of_freeUnits h.1 free) h, .inl rfl⟩

theorem settled_takeUpDrop {s : State} (h : stockRight s) (unheld : s.pcc.hold = none) : settled s.takeUpDrop := by
  have cleared : stockRight (s.setIntake { s.intake with takeUp := false }) := stock_congr (s := s) rfl h
  obtain ⟨asked, hold⟩ := stockRight_askHold cleared unheld
  unfold State.takeUpDrop
  dsimp only
  split
  · exact settled_of_entered (stock_congr rfl asked) hold (.inl rfl)
  split
  · exact settled_of_entered (stock_congr rfl asked) hold (.inr rfl)
  · exact settled_testChute cleared

theorem settled_afterDrumChange {s : State} (hs : settled s)
    (waits : s.intake.takeUp = true → s.intake.phase = .closed ∨ s.intake.phase = .shut) : settled s.afterDrumChange := by
  unfold State.afterDrumChange
  split
  next takeUp =>
    refine settled_takeUpDrop (stock_of_settled hs) ?_
    have hold := hs.1
    obtain e | e := waits takeUp <;> simpa [holdOpen, stageOf, e] using hold
  next =>
    obtain e | e := retest_cases s
    · rwa [e]
    · exact e ▸ settled_testChute (stock_of_settled hs)

/-! ## The arbiter -/

theorem sources_markServing (src : Source) (l : List PosRequest) :
    (markServing src l).map PosRequest.source = l.map PosRequest.source := by
  induction l with
  | nil => rfl
  | cons r rest ih =>
    unfold markServing
    split
    · rfl
    · rw [List.map_cons, List.map_cons, ih]

theorem sources_arrive (s : State) :
    (s.arrive.pcc.queue.map PosRequest.source).Sublist (s.pcc.queue.map PosRequest.source) := by
  unfold State.arrive
  split
  next => exact .refl _
  next r _ =>
    have kept : ((s.pcc.queue.filter fun x => x.stage != .serving).map PosRequest.source).Sublist
        (s.pcc.queue.map PosRequest.source) := List.filter_sublist.map _
    cases r.source with
    | intake =>
      have same : (s.pcc.queue.map fun x => if x.stage = .serving then { x with stage := .inService } else x).map
          PosRequest.source = s.pcc.queue.map PosRequest.source := by
        rw [List.map_map]
        exact List.map_congr_left fun x _ => by simp only [Function.comp_apply]; split <;> rfl
      simp [State.enterTip, same]
    | release => dsimp only; split <;> exact kept

theorem sources_serve (s : State) :
    (s.serve.pcc.queue.map PosRequest.source).Sublist (s.pcc.queue.map PosRequest.source) := by
  unfold State.serve
  split
  next =>
    split
    next => exact .refl _
    next src _ =>
      have marked : ((markServing src s.pcc.queue).map PosRequest.source).Sublist (s.pcc.queue.map PosRequest.source) :=
        sources_markServing src s.pcc.queue ▸ .refl _
      dsimp only
      split
      next => exact marked
      next =>
        split
        · exact (sources_arrive _).trans marked
        · rw [State.startMove_pcc_queue]
          exact marked
  next => exact .refl _

/-- Requests leave the queue, and nothing else of the stock changes. -/
theorem StockKept.of_requests {s t : State} (records : t.cr.records = s.cr.records) (pockets : t.pcc.pockets = s.pcc.pockets)
    (hold : t.pcc.hold = s.pcc.hold) (wau : t.wau = s.wau)
    (requests : (t.pcc.queue.map PosRequest.source).Sublist (s.pcc.queue.map PosRequest.source)) : StockKept s t :=
  ⟨by rw [pockets], fun p => by rw [pockets], .inl hold, by rw [wau], by rw [wau], requests,
    (RecordsQuiet.of_eq records).pendings⟩

/-- The same with the sequencer as it is. -/
theorem Calm.of_requests {s t : State} (records : t.cr.records = s.cr.records) (pockets : t.pcc.pockets = s.pcc.pockets)
    (hold : t.pcc.hold = s.pcc.hold) (wau : t.wau = s.wau)
    (requests : (t.pcc.queue.map PosRequest.source).Sublist (s.pcc.queue.map PosRequest.source))
    (stage : stageOf t.intake.phase = stageOf s.intake.phase)
    (chosen : t.intake.readings.chosen = s.intake.readings.chosen) : Calm s t :=
  { StockKept.of_requests records pockets hold wau requests with
    stage, chosen, hold, intakes := fun _ => (RecordsQuiet.of_eq records).intakes }

/-- An intake request that arrives takes a sequencer in POSITION or TIP to TIP (R108). -/
theorem stage_arrive {s : State} (hs : seqOpen s) : stageOf s.arrive.intake.phase = stageOf s.intake.phase := by
  unfold State.arrive
  split
  next => rfl
  next r e =>
    cases src : r.source with
    | intake =>
      obtain ⟨-, -, request, -⟩ := hs
      exact (stageOf_eq_position.mpr (request r (List.mem_of_find?_eq_some e) src)).symm
    | release => dsimp only; split <;> rfl

theorem queuesKept_arrive (s : State) : QueuesKept s s.arrive :=
  ⟨seqKept_arrive s, fun seq => Calm.settled
    (.of_requests (by simp) (by simp) (by simp) (by simp) (sources_arrive s) (stage_arrive seq.1) (by simp))⟩

theorem queuesKept_setQueue {s : State} {l : List PosRequest}
    (h : (l.map PosRequest.source).Sublist (s.pcc.queue.map PosRequest.source)) : QueuesKept s (s.setQueue l) := by
  refine .of_calm (seqKept_setQueue fun q hq e => .inl ?_) (.of_requests rfl rfl rfl rfl h rfl rfl)
  obtain ⟨x, hx, source⟩ := List.mem_map.mp (h.subset (List.mem_map_of_mem hq))
  exact ⟨x, hx, source.trans e⟩

theorem queuesKept_startMove {s : State} (t : Fin 21) (pre : Bool) (h : s.pcc.drum = .idle) :
    QueuesKept s (s.startMove t pre) :=
  .of_calm (seqKept_startMove t pre h) (.same (by simp [queuesView, stockView]))

theorem queuesKept_serve (s : State) : QueuesKept s s.serve := by
  unfold State.serve
  split
  next can =>
    split
    next => exact .refl s
    next src _ =>
      have marked : QueuesKept s (s.setQueue (markServing src s.pcc.queue)) :=
        queuesKept_setQueue (sources_markServing src s.pcc.queue ▸ .refl _)
      have idle : s.pcc.drum = .idle := drum_of_canServe can
      dsimp only
      split
      next => exact marked
      next =>
        split
        · exact marked.trans (queuesKept_arrive _)
        · exact marked.trans (queuesKept_startMove _ _ idle)
  next => exact .refl s

/-- How many requests of a source may stand (R83). -/
def placesOf : Source → Nat
  | .intake => 1
  | .release => 3

theorem requestsRight_iff {s : State} :
    requestsRight s ↔ ∀ x, s.pcc.queue.countP (fun q => q.source == x) ≤ placesOf x :=
  ⟨fun h x => by cases x; exacts [h.1, h.2], fun h => ⟨h .intake, h .release⟩⟩

/-- A request enters where its source has a place (R83). -/
theorem settled_append {s : State} {r : PosRequest} (hs : settled s)
    (free : s.pcc.queue.countP (fun q => q.source == r.source) < placesOf r.source) :
    settled (s.setQueue (s.pcc.queue ++ [r])) := by
  obtain ⟨hold, ⟨room, jobs, requests⟩, full⟩ := hs
  refine ⟨hold, ⟨room, jobs, requestsRight_iff.mpr fun x => ?_⟩, full⟩
  have before := requestsRight_iff.mp requests x
  rw [State.setQueue_queue, List.countP_append, List.countP_singleton]
  split
  next e =>
    obtain rfl : r.source = x := by simpa using e
    exact free
  next => exact before

theorem queuesKept_enqueue {s : State} {r : PosRequest}
    (h : r.source = .intake → s.intake.phase = .position ∨ s.intake.phase = .tip)
    (free : s.pcc.queue.countP (fun q => q.source == r.source) < placesOf r.source) : QueuesKept s (s.enqueue r) := by
  have appended : SeqKept s (s.setQueue (s.pcc.queue ++ [r])) := seqKept_setQueue fun q hq e => by
    obtain hq | hq := List.mem_append.mp hq
    · exact .inl ⟨q, hq, e⟩
    · obtain rfl := List.mem_singleton.mp hq
      exact .inr (h e)
  refine QueuesKept.trans ⟨appended, fun _ hs => settled_append hs free⟩ (QueuesKept.trans ?_ (queuesKept_serve _))
  exact .of_calm (seqKept_cutPreMove _) (.same (by simp [queuesView, stockView]))

theorem queuesKept_arriveAt {s : State} (k : Fin 21) (h : ∀ x, s.pcc.drum ≠ .homing x) : QueuesKept s (s.arriveAt k) := by
  refine QueuesKept.trans (t := s.setPcc { s.pcc with position := some k, drum := .idle }) ?_
    ((queuesKept_arrive _).trans (queuesKept_serve _))
  exact .of_calm (seqKept_drum rfl rfl rfl rfl fun hs => takeUp_of_drum hs h) (.same rfl)

/-! ## Jams, faults and homing -/

theorem quiet_jammed (r : Record) : Quiet r (if r.state = .intake then { r with jammed := true } else r) := by
  split
  · exact ⟨rfl, id, id, rfl⟩
  · exact .refl r

theorem stockKept_jam (s : State) : StockKept s s.jam where
  capacities := by simp
  used p := by simp
  holds := .inr (by simp [State.jam])
  jobs := by simp
  working := by simp
  requests := List.filter_sublist.map _
  pendings := (RecordsQuiet.of_map rfl quiet_jammed).pendings

theorem settled_jam {s : State} (h : stockRight s) : settled s.jam :=
  settled_of_unheld ((stockKept_jam s).stock h) (by simp [State.jam]) (.inr (.inr (by simp [State.jam])))

theorem settled_enterJammed {s : State} (h : stockRight s) (off : s.intake.takeUp = false) : settled s.enterJammed :=
  (queuesKept_serve s.jam).2 (seqRight_jam off).1 (settled_jam h)

theorem queuesKept_enterJammed {s : State} (h : hasRecord s.intake.phase = true) : QueuesKept s s.enterJammed := by
  refine ⟨seqKept_enterJammed h, fun seq hs =>
    settled_enterJammed (stock_of_settled hs) (takeUp_of_phase seq.1 ?_ ?_)⟩ <;>
    exact fun e => by simp [e, hasRecord] at h

theorem queuesKept_carouselFault (s : State) : QueuesKept s s.carouselFault := by
  refine ⟨seqKept_carouselFault s, fun seq hs => ?_⟩
  have stopped : Calm s (s.setPcc { s.pcc with drum := .fault, position := .none, lastDir := .none, queue := [] }) :=
    .of_requests rfl rfl rfl rfl (List.nil_sublist _) rfl rfl
  unfold State.carouselFault
  dsimp only
  split
  next positioned =>
    have jammed := settled_jam (stopped.stock (stock_of_settled hs))
    refine settled_afterDrumChange (Calm.settled (.same ?_) jammed) fun takeUp => ?_
    · simp [queuesView, stockView]
    · have waits := waits_of_seqRight seq (by simpa using takeUp)
      obtain e | e := waits <;> simp [e, Phase.positioned] at positioned
  next =>
    refine settled_afterDrumChange (Calm.settled (.same ?_) (stopped.settled hs)) fun takeUp => ?_
    · simp [queuesView, stockView]
    · simpa using waits_of_seqRight seq (by simpa using takeUp)

theorem queuesKept_homed (s : State) : QueuesKept s s.homed := by
  refine ⟨seqKept_homed s, fun seq hs => ?_⟩
  have idle : settled (s.setPcc { s.pcc with drum := .idle, position := some 0, lastDir := some .forward }) :=
    Calm.settled (s := s) (.same rfl) hs
  obtain ⟨right, -⟩ := seqRight_afterDrumChange
    (s := s.setPcc { s.pcc with drum := .idle, position := some 0, lastDir := some .forward }) seq.1
  exact (queuesKept_serve _).2 right (settled_afterDrumChange idle fun takeUp => waits_of_seqRight (s := s) seq takeUp)

theorem queuesKept_beginSearch (s : State) : QueuesKept s s.beginSearch := by
  refine ⟨seqKept_beginSearch s, fun seq hs => ?_⟩
  unfold State.beginSearch
  split
  · exact (queuesKept_homed s).2 seq hs
  · exact Calm.settled (s := s) (.same rfl) hs

theorem queuesKept_interlockSecured (s : State) : QueuesKept s s.interlockSecured := by
  unfold State.interlockSecured
  cases s.pcc.drum with
  | homing x => cases x with
    | none => exact queuesKept_beginSearch s
    | some _ => exact queuesKept_serve s
  | idle | settle _ | moving _ _ | fault => exact queuesKept_serve s

/-! ## The session -/

theorem sources_withdraw (l : List PosRequest) :
    ((withdraw l).map PosRequest.source).Sublist (l.map PosRequest.source) := by
  have same : (withdraw l).map PosRequest.source = (l.filter fun r => !waits .release r).map PosRequest.source := by
    unfold withdraw
    rw [List.map_map]
    exact List.map_congr_left fun x _ => by simp only [Function.comp_apply]; split <;> rfl
  exact same ▸ List.filter_sublist.map _

theorem queuesKept_leaveOpen (s : State) : QueuesKept s s.leaveOpen := by
  refine QueuesKept.trans (t := s.setRc { s.rc with session := .closed }) (.same rfl rfl)
    (QueuesKept.trans (queuesKept_setQueue (sources_withdraw _)) (QueuesKept.trans (.same ?_ ?_) (queuesKept_serve _)))
  · simp [seqView]
  · simp [queuesView, stockView]

theorem queuesKept_closeSession (s : State) : QueuesKept s s.closeSession := by
  unfold State.closeSession
  split
  · exact .refl s
  · exact .same rfl rfl
  · exact queuesKept_leaveOpen s

theorem queuesKept_afterPermit {s t : State} (h : QueuesKept s t) : QueuesKept s (s.afterPermit t) := by
  unfold State.afterPermit
  split
  · exact h.trans (queuesKept_closeSession t)
  · exact h

end Sys2Proof.QueueProofs
end

section
/-! PROOF. The hold, the room and the queues under the jobs and the route decision (R52 to R59, R74, R105 to R107). -/

namespace Sys2Proof.QueueProofs

open Sys2Proof.Machine Sys2Proof.Safety Sys2Proof.CustodyProofs Sys2Proof.WeighingProofs

/-! ## The job queue -/

/-- The job queue before the WAU looks at its head: it works only while a job stands, and every PENDING record has its
job. -/
def jobsQueued (s : State) : Prop :=
  s.wau.queue.length ≤ 6 ∧ (s.wau.working.isSome = true → s.wau.queue ≠ []) ∧ pendingsQueued s

theorem jobsQueued_of_open {s : State} (h : jobsOpen s) : jobsQueued s :=
  let ⟨length, works, pendings⟩ := h
  ⟨length, works.mp, pendings⟩

theorem mem_dropWhile {α : Type} {p : α → Bool} {l : List α} {x : α} (hx : x ∈ l) (h : p x = false) :
    x ∈ l.dropWhile p := by
  rw [← List.takeWhile_append_dropWhile (p := p) (l := l)] at hx
  obtain hx | hx := List.mem_append.mp hx
  · exact absurd (List.mem_takeWhile_imp hx) (by simp [h])
  · exact hx

/-- The start discards no job of a PENDING record: that record is living (R56). -/
theorem jobsOpen_startWau {s : State} (reg : registerRight s) (h : jobsQueued s) : jobsOpen s.startWau := by
  obtain ⟨length, works, pendings⟩ := h
  cases working : s.wau.working with
  | some inputs =>
    have busy : s.wau.working.isSome = true := by simp [working]
    rw [startWau_of_working busy]
    exact ⟨length, ⟨works, fun _ => busy⟩, pendings⟩
  | none =>
    rw [startWau_of_idle working]
    refine ⟨?_, startHead_snd_isSome s _, fun r hr pending => ?_⟩
    · dsimp only
      rw [startHead_fst]
      exact (List.dropWhile_suffix _).length_le.trans length
    · have living := jobRecord_of_mem reg.1 hr (inCustody_iff.mpr ((reg.2 r hr).2 pending))
      dsimp only
      rw [startHead_fst]
      exact mem_dropWhile (pendings r hr pending) (by simp [living])

/-- A job queued where a place is free (R52, R53). -/
theorem jobsOpen_queueJob {s : State} {r : Record} (hr : r ∈ s.cr.records) (reg : registerRight (s.queueJob r.receipt r.tag))
    (h : jobsOpen s) (free : s.wau.queue.length ≤ 5) : jobsOpen (s.queueJob r.receipt r.tag) := by
  obtain ⟨-, -, pendings⟩ := h
  have reg : registerRight (withJob s r) := registerRight_congr (by simp [ledger, queueJob_eq_startWau]) reg
  rw [queueJob_eq_startWau]
  refine jobsOpen_startWau reg ⟨?_, fun _ => by simp [withJob], fun r' hr' pending => ?_⟩
  · simpa [withJob] using Nat.lt_succ_of_le free
  · obtain ⟨x, hx, rfl⟩ := mem_updateReceipt.mp hr'
    split
    next e =>
      have same : jobOf x = jobOf r := by
        have here : ∀ y ∈ s.cr.records, y.receipt = r.receipt →
            ({ y with verdict := some .pending } : Record) ∈ (withJob s r).cr.records := fun y hy ey =>
          mem_updateReceipt.mpr ⟨y, hy, by rw [if_pos ey]⟩
        have one := (rising_of_receiptsOrdered reg.1).eq_of_receipt (here x hx e) (here r hr rfl) e
        have tag : x.tag = r.tag := by simpa using congrArg Record.tag one
        simp [jobOf, e, tag]
      exact List.mem_append_right _ (List.mem_singleton.mpr same)
    next e => exact List.mem_append_left _ (pendings x hx (by simpa [e] using pending))

/-- A job for a record while a place is free, in ROUTE or elsewhere (R53, R54). -/
theorem settled_queueJob {s : State} {r : Record} (hr : r ∈ s.cr.records)
    (reg : registerRight (s.queueJob r.receipt r.tag)) (hs : settled s) (free : s.wau.queue.length ≤ 5) :
    settled (s.queueJob r.receipt r.tag) := by
  obtain ⟨hold, ⟨room, jobs, requests⟩, full⟩ := hs
  refine ⟨holdOpen_of_intakes (by simp) (by simp) (by simp) (fun _ x hx hst => ?_) hold,
    ⟨roomRight_congr (by simp) room, jobsOpen_queueJob hr reg jobs free, requestsRight_congr (by simp) requests⟩,
    fun route => ?_⟩
  · rw [queueJob_records] at hx
    obtain ⟨y, hy, rfl⟩ := mem_updateReceipt.mp hx
    exact ⟨y, hy, by split at hst <;> exact hst, by split <;> rfl⟩
  · have length := full (by simpa using route)
    omega

/-! ## The route decision -/

theorem fits_routeOpen (s : State) (r : Record) (c : Candidate) (rest : List Candidate) :
    (s.routeOpen r c rest).pocket = 0 ∨ s.pcc.fits (s.routeOpen r c rest).pocket r.size = true := by
  induction rest generalizing c with
  | nil =>
    unfold State.routeOpen
    split
    · exact .inl rfl
    split
    next p found =>
      split
      · exact .inl rfl
      · exact .inr (by simpa using List.find?_some found)
    next => exact .inl rfl
  | cons next rest ih =>
    unfold State.routeOpen
    split
    · exact .inl rfl
    split
    next p found =>
      split
      · exact .inl rfl
      · exact .inr (by simpa using List.find?_some found)
    next => exact ih next

/-- The bag fits into the chosen pocket, or goes to pocket 0 (R37 to R41). -/
theorem fits_route (s : State) (r : Record) :
    (s.route r).pocket = 0 ∨ s.pcc.fits (s.route r).pocket r.size = true := by
  unfold State.route
  split
  · exact .inl rfl
  · unfold State.routeAmong
    split
    · exact .inl rfl
    · exact .inl rfl
    · exact fits_routeOpen ..

/-- The drop in POSITION with the hold moved to its pocket, before its job is queued (R74, R106). -/
def positioned (s : State) (r : Record) : State :=
  ((s.update r.receipt fun x => x.routed (s.route r)).setHold (some ⟨(s.route r).pocket, r.size.getD 0⟩)).setIntake
    { s.intake with phase := .position, readings := { s.intake.readings with chosen := some (s.route r).pocket } }

theorem decideRoute_eq {s : State} {r : Record} (h : s.intakeRecord = some r) :
    s.decideRoute = ((positioned s r).queueJob r.receipt r.tag).offerIntake (s.route r).pocket := by
  unfold State.decideRoute
  rw [h]
  rfl

theorem quiet_routed (r : Record) (x : Route) : Quiet r (r.routed x) := ⟨rfl, id, id, rfl⟩

/-- The chosen pocket has the room of the bag: it was held in pocket 0, or the bag fits (R73, R74). -/
theorem roomRight_positioned {s : State} {r : Record} {n : Nat} (room : roomRight s) (hold : s.pcc.hold = some ⟨0, 4⟩)
    (size : r.size = some n) (small : n ≤ 4) : roomRight (positioned s r) := by
  refine roomRight_of_hold (s := s) (h := ⟨(s.route r).pocket, n⟩) rfl (by simp [positioned, size]) ?_ room
  dsimp only
  obtain zero | fits := fits_route s r
  · rw [zero]
    have held : s.pcc.heldUnits 0 = 4 := by simp [Carousel.heldUnits, hold]
    have units := (room.2 0).2
    omega
  · have units := used_le_of_fits room fits
    rw [size, Option.getD_some] at units
    omega

theorem settled_positioned {s : State} {r : Record} (drop : dropRight s) (hold : s.pcc.hold = some ⟨0, 4⟩)
    (hr : inIntake s r) (stock : stockRight s) : settled (positioned s r) := by
  obtain ⟨room, jobs, requests⟩ := stock
  obtain ⟨⟨hmem, -⟩, hst, only⟩ := hr
  obtain ⟨n, size, -, small⟩ := (dropRight_iff.mp drop).1.1 r hmem (by simp [hst]) (by simp [hst])
  have quiet : RecordsQuiet s (positioned s r) := .of_update (n := r.receipt) rfl fun x => quiet_routed x (s.route r)
  refine ⟨⟨(s.route r).pocket, n, rfl, ?_, fun x hx hxst => ?_⟩, ⟨roomRight_positioned room hold size small, ?_, requests⟩,
    nofun⟩
  · simp [positioned, size]
  · obtain ⟨y, hy, hyst, e⟩ := quiet.intakes x hx hxst
    rw [← e, only y hy hyst, size]
  · obtain ⟨length, works, pendings⟩ := jobs
    refine ⟨length, works, fun x hx pending => ?_⟩
    obtain ⟨y, hy, hp, e⟩ := quiet.pendings x hx pending
    exact e ▸ pendings y hy hp

theorem queuesKept_offerIntake {s : State} (p : Fin 21) (phase : s.intake.phase = .position) (none : noRequest s) :
    QueuesKept s (s.offerIntake p) := by
  unfold State.offerIntake
  split
  · exact queuesKept_enterJammed (by simp [phase, hasRecord])
  · refine queuesKept_enqueue (fun _ => .inl phase) ?_
    rw [List.countP_eq_zero.mpr fun q hq => by simpa using none q hq]
    exact Nat.one_pos

/-- The route decision: the hold moves to the chosen pocket, the job takes the free place, and the request is the only one of
the sequencer (R53, R74, R106, R107). -/
theorem settled_decideRoute {s : State} (reg : registerRight s) (drop : dropRight s) (route : s.intake.phase = .route)
    (hold : s.pcc.hold = some ⟨0, 4⟩) (stock : stockRight s) (free : s.wau.queue.length ≤ 5) : settled s.decideRoute := by
  obtain ⟨bag, seq, -⟩ := dropRight_iff.mp drop
  obtain ⟨r, hr⟩ := bag.2.1 (by simp [route, hasRecord])
  have request := noRequest_of_phase seq (by simp [route]) (by simp [route])
  have off := takeUp_of_phase seq (by simp [route]) (by simp [route])
  have queued : registerRight ((positioned s r).queueJob r.receipt r.tag) := by
    refine (changes_update (f := fun x => { x.routed (s.route r) with verdict := some .pending }) hr.1.1
      (kept_routed hr.2.1 (s.route r)) ?_).keeps Change.keeps_registerRight reg
    simp [ledger, queueJob_records, updateReceipt_updateReceipt, Record.routed, positioned]
  have here : r.routed (s.route r) ∈ (positioned s r).cr.records :=
    mem_updateReceipt.mpr ⟨r, hr.1.1, (if_pos rfl).symm⟩
  have before := settled_queueJob here queued (settled_positioned drop hold hr stock) free
  rw [decideRoute_eq (intakeRecord_of_inIntake hr)]
  refine (queuesKept_offerIntake _ (by simp [positioned]) (by simpa [noRequest, positioned] using request)).2 ?_ before
  refine ⟨⟨?_, ?_, ?_, ?_⟩, ?_⟩ <;> simp [positioned, off]

/-- A drop that comes into ROUTE, or waits there, takes a free place (R54, R106). -/
theorem settled_takeRoute {s : State} (reg : registerRight s) (drop : dropRight s) (hold : holdOpen s)
    (stock : stockRight s) : settled s.takeRoute := by
  unfold State.takeRoute
  split
  next h =>
    obtain ⟨route, free⟩ := h
    have held : s.pcc.hold = some ⟨0, 4⟩ := by simpa [holdOpen, stageOf, route] using hold
    have free : 1 ≤ 6 - s.wau.queue.length := free
    exact settled_decideRoute reg drop route held stock (by omega)
  next h =>
    refine ⟨hold, stock, fun route => ?_⟩
    obtain ⟨-, ⟨length, -⟩, -⟩ := stock
    have taken : ¬ 1 ≤ 6 - s.wau.queue.length := fun free => h ⟨route, free⟩
    omega

/-! ## The start and the completion of a job -/

theorem settled_workOn {s : State} (reg : registerRight s) (drop : dropRight s) (hold : holdOpen s) (room : roomRight s)
    (jobs : jobsQueued s) (requests : requestsRight s) : settled s.workOn := by
  refine settled_takeRoute (registerRight_congr (by simp [ledger]) reg) (dropRight_congr (by simp) (by simp [seqView]) drop)
    (holdOpen_of_intakes (by simp) (by simp) (by simp) (fun _ => (RecordsQuiet.of_eq (by simp)).intakes) hold)
    ⟨roomRight_congr (by simp) room, jobsOpen_startWau reg jobs, requestsRight_congr (by simp) requests⟩

theorem judge_ne_pending (below above : Bool) : judge below above ≠ .pending := by
  cases below <;> cases above <;> simp [judge]

/-- A result is a judgement, never PENDING (R59). -/
theorem check_ne_pending (inputs : JobInputs) : inputs.check.verdict ≠ some .pending := by
  unfold JobInputs.check
  split <;> cases inputs.mass <;> simp [breakdownVerdict, plausibilityVerdict, judge_ne_pending]

/-- The records of a completion are those before it, but that no PENDING one is among those written (R59). -/
theorem recordsQuiet_finishHead {s : State} {inputs : JobInputs} {j : Job} {rest : List Job}
    (working : s.wau.working = some inputs) (queue : s.wau.queue = j :: rest) : RecordsQuiet s s.finishHead := by
  have written : ∀ r : Record, Quiet r (r.withResult inputs.check) := fun r =>
    ⟨rfl, fun pending => absurd pending (check_ne_pending inputs), id, rfl⟩
  rw [finishHead_eq working queue]
  by_cases due : resultDue s j rest = true
  · exact .of_update (n := j.receipt) (if_pos due) written
  · exact .of_eq (if_neg due)

/-- A PENDING record whose job completes has a later one, or takes the result (R59). -/
theorem jobsQueued_finishHead {s : State} {inputs : JobInputs} {j : Job} {rest : List Job} (reg : registerRight s)
    (h : jobsOpen s) (working : s.wau.working = some inputs) (queue : s.wau.queue = j :: rest) :
    jobsQueued s.finishHead := by
  obtain ⟨length, -, pendings⟩ := h
  rw [finishHead_eq working queue]
  refine ⟨?_, nofun, fun r' hr' pending => ?_⟩
  · rw [queue, List.length_cons] at length
    exact (Nat.le_succ _).trans length
  · have later : ∀ r ∈ s.cr.records, r.verdict = some .pending → jobOf r ≠ j → jobOf r ∈ rest := fun r hr hp ne => by
      have here := queue ▸ pendings r hr hp
      exact (List.mem_cons.mp here).resolve_left ne
    have hr' : r' ∈ recordsFinished s inputs j rest := hr'
    unfold recordsFinished at hr'
    split at hr'
    next due =>
      obtain ⟨x, hx, rfl⟩ := mem_updateReceipt.mp hr'
      split at pending
      next => exact absurd pending (check_ne_pending inputs)
      next e =>
        rw [if_neg e]
        exact later x hx pending fun same => e (congrArg Job.receipt same)
    next due =>
      by_cases same : jobOf r' = j
      · have living := jobRecord_of_mem reg.1 hr' (inCustody_iff.mpr ((reg.2 r' hr').2 pending))
        rw [same] at living
        have behind : rest.contains j = true := by simpa [resultDue, living, pending] using due
        rw [same]
        exact List.contains_iff_mem.mp behind
      · exact later r' hr' pending same

theorem settled_jobCompletion {s : State} (reg : registerRight s) (drop : dropRight s) (hs : settled s)
    (working : s.wau.working.isSome = true) : settled s.finishHead.workOn := by
  obtain ⟨hold, ⟨room, jobs, requests⟩, -⟩ := hs
  obtain ⟨inputs, hw⟩ := Option.isSome_iff_exists.mp working
  obtain ⟨j, rest, queue⟩ := List.exists_cons_of_ne_nil (jobs.2.1.mp working)
  have changes := changes_finishHead s
  have reg' := changes.keeps Change.keeps_registerRight reg
  refine settled_workOn reg' (dropRight_of_kept reg.1 reg'.1 (changes.bagKept reg.1) (.same (by simp [seqView])) drop)
    (holdOpen_of_intakes (by simp) (by simp) (by simp) (fun _ => (recordsQuiet_finishHead hw queue).intakes) hold)
    (roomRight_congr (by simp) room) (jobsQueued_finishHead reg jobs hw queue) (requestsRight_congr (by simp) requests)

/-! ## The value taken -/

/-- The drop that comes into ROUTE with its mass (R105). -/
def weighedIn (s : State) (v : Int) (unsteady : Bool) : State :=
  let t := s.setRecords (s.cr.records.map fun r =>
    if r.state = .intake then { r with mass := some (clampReading v), overRange := overRangeOf v, unsteady } else r)
  t.setIntake { t.intake with
    phase := .route, weighTimer := .none
    readings := { t.intake.readings with mass := some (clampReading v), overRange := overRangeOf v, unsteady } }

theorem takeValue_eq (s : State) (v : Int) (unsteady : Bool) : s.takeValue v unsteady = (weighedIn s v unsteady).takeRoute :=
  rfl

theorem quiet_weighed (r : Record) (v : Int) (unsteady : Bool) : Quiet r (if r.state = .intake then
    { r with mass := some (clampReading v), overRange := overRangeOf v, unsteady } else r) := by
  split
  · exact ⟨rfl, id, id, rfl⟩
  · exact .refl r

theorem seqKept_weighedIn {s : State} (v : Int) (unsteady : Bool) (h : s.intake.phase = .weigh) :
    SeqKept s (weighedIn s v unsteady) := by
  intro hs
  have off := takeUp_of_phase hs.1 (by simp [h]) (by simp [h])
  have requests := noRequest_of_phase hs.1 (by simp [h]) (by simp [h])
  refine ⟨⟨seqOpen_of_noRequest requests ?_ ?_ ?_ ?_, ?_⟩, ?_⟩ <;> simp [weighedIn, h, off, hasRecord]

theorem settled_takeValue {s : State} (reg : registerRight s) (drop : dropRight s) (hs : settled s)
    (phase : s.intake.phase = .weigh) (v : Int) (unsteady : Bool) : settled (s.takeValue v unsteady) := by
  have changes : Changes s (weighedIn s v unsteady) := changes_map (fun r _ => kept_weighed r v unsteady) rfl
  have reg' := changes.keeps Change.keeps_registerRight reg
  have quiet : RecordsQuiet s (weighedIn s v unsteady) := .of_map rfl fun r => quiet_weighed r v unsteady
  have kept : StockKept s (weighedIn s v unsteady) :=
    ⟨rfl, fun _ => le_rfl, .inl rfl, rfl, rfl, .refl _, quiet.pendings⟩
  have held : s.pcc.hold = some ⟨0, 4⟩ := by simpa [holdOpen, stageOf, phase] using hs.1
  rw [takeValue_eq]
  exact settled_takeRoute reg' (dropRight_of_kept reg.1 reg'.1 (changes.bagKept reg.1) (seqKept_weighedIn v unsteady phase) drop)
    held (kept.stock (stock_of_settled hs))

end Sys2Proof.QueueProofs
end

section
/-! PROOF. The hold, the room and the queues under the operations of the register and the pockets (R2, R7, R10 to R12, R71, R75 to
R77, R124). -/

namespace Sys2Proof.QueueProofs

open Sys2Proof.Machine Sys2Proof.Safety Sys2Proof.CustodyProofs Sys2Proof.SettingsProofs

/-! ## Bags that enter a pocket and leave it -/

theorem used_set {v : Vector Pocket 21} {p : Fin 21} {x : Pocket} (h : x.used = v[p].used) (q : Fin 21) :
    (v.set p x)[q].used = v[q].used := by
  by_cases e : p = q
  · subst e
    simpa using h
  · simp [Vector.getElem_set_ne, Fin.val_ne_of_ne e]

/-- A bag for which pocket p has room enters it (R71, R76). -/
theorem stockRight_filled {s t : State} {p : Fin 21} {n : Nat}
    (capacities : t.pcc.pockets.map Pocket.capacity = s.pcc.pockets.map Pocket.capacity)
    (used : ∀ q : Fin 21, t.pcc.pockets[q].used = s.pcc.pockets[q].used + if p = q then n else 0)
    (fits : s.pcc.pockets[p].used + s.pcc.heldUnits p + n ≤ 24) (records : RecordsQuiet s t)
    (hold : t.pcc.hold = s.pcc.hold) (queue : t.pcc.queue = s.pcc.queue) (wau : t.wau = s.wau) (h : stockRight s) :
    stockRight t := by
  obtain ⟨⟨zero, all⟩, ⟨length, works, pendings⟩, requests⟩ := h
  have held : ∀ q, t.pcc.heldUnits q = s.pcc.heldUnits q := fun q => by simp [Carousel.heldUnits, hold]
  refine ⟨⟨(capacity_of_map capacities 0).trans zero, fun q => ⟨(capacity_of_map capacities q).trans_le (all q).1, ?_⟩⟩,
    ?_, requestsRight_of_sublist (queue ▸ .refl _) requests⟩
  · have units := (all q).2
    rw [used q, held q]
    split
    next e =>
      subst e
      omega
    next => omega
  · unfold QueueProofs.jobsOpen worksOnQueue pendingsQueued
    rw [wau]
    refine ⟨length, works, fun r hr pending => ?_⟩
    obtain ⟨x, hx, hp, e⟩ := records.pendings r hr pending
    exact e ▸ pendings x hx hp

theorem quiet_placed (r : Record) (p : Fin 21) (g : Nat) (c : Option Nat) : Quiet r (r.placed p g c) :=
  ⟨rfl, id, fun h => by unfold Record.placed at h; cases e : r.toGrace g <;> simp [e] at h, rfl⟩

theorem stockRight_place {s : State} {r : Record} {p : Fin 21}
    (fits : s.pcc.pockets[p].used + s.pcc.heldUnits p + r.size.getD 0 ≤ 24) (h : stockRight s) : stockRight (s.place r p) :=
  stockRight_filled (capacities_place s r p) (fun q => ofPocket_place s r q p .used) fits
    (.of_update (place_records s r p) fun x => quiet_placed x p _ _) (by simp) (by simp) (by simp) h

/-- The sequencer and its hold stay as they were. -/
theorem settled_of_stock {s t : State} (stock : stockRight t) (queue : t.wau.queue = s.wau.queue)
    (phase : t.intake.phase = s.intake.phase) (chosen : t.intake.readings.chosen = s.intake.readings.chosen)
    (hold : t.pcc.hold = s.pcc.hold) (intakes : IntakesFrom s t) (hs : settled s) : settled t := by
  obtain ⟨held, -, full⟩ := hs
  refine ⟨holdOpen_of_intakes (by rw [phase]) chosen hold (fun _ => intakes) held, stock, fun route => ?_⟩
  rw [queue]
  exact full (phase ▸ route)

/-- A bag that fits is returned (R11, R73, R148). -/
theorem queuesKept_giveBack {s : State} {r : Record} {q : Fin 21} (fits : s.pcc.fits q r.size = true) :
    QueuesKept s (s.giveBack r q) := by
  have quiet : RecordsQuiet s (s.giveBack r q) := .of_update (giveBack_records s r q) fun x => ⟨rfl, id, nofun, rfl⟩
  refine ⟨.same (by simp [seqView]), fun _ hs => ?_⟩
  have stock := stock_of_settled hs
  refine settled_of_stock (stockRight_filled (capacities_giveBack s r q) (fun p => ?_) (used_le_of_fits stock.1 fits) quiet
    (by simp) (by simp) (by simp) stock) (by simp) (by simp) (by simp) (by simp) quiet.intakes hs
  exact ofPocket_enterPocket ((s.update r.receipt fun x =>
    { x with state := .held, location := .pocket q, countRequired := false }).appendList q r.receipt) p q r .used

theorem queuesKept_stage (s : State) (r : Record) (q : Fin 21) : QueuesKept s (s.stage r q) := by
  refine .of_calm (.same (by simp [seqView])) (.of_records
    (.of_update (stage_records s r q) fun x => ⟨rfl, id, nofun, rfl⟩) (capacities_stage s r q) (fun p => ?_) (by simp)
    (by simp) (by simp))
  exact (ofPocket_leavePocket s p q r .used).trans_le (Nat.sub_le _ _)

/-! ## Records -/

/-- Records change quietly, and nothing else that the invariant or the sequencer's side reads. -/
theorem QueuesKept.of_quiet {s t : State} (quiet : RecordsQuiet s t) (pcc : t.pcc = s.pcc) (wau : t.wau = s.wau)
    (intake : t.intake = s.intake) : QueuesKept s t :=
  .of_calm (.same (by unfold seqView; rw [pcc, intake]))
    (.of_records quiet (by rw [pcc]) (fun p => by rw [pcc]) (by simp [pcc]) wau intake)

theorem queuesKept_update (s : State) (n : Nat) {f : Record → Record} (h : ∀ r, Quiet r (f r)) :
    QueuesKept s (s.update n f) := .of_quiet (.of_update rfl h) rfl rfl rfl

theorem queuesKept_remove (s : State) (n : Nat) : QueuesKept s (s.remove n) :=
  .of_quiet (.of_subset fun _ hr => List.mem_of_mem_filter hr) rfl rfl rfl

theorem pendingsFrom_create {s : State} {make : Nat → Record} (h : ∀ n, (make n).verdict ≠ some .pending) :
    PendingsFrom s (s.create make) := by
  intro r hr pending
  obtain rfl | hr := mem_insertRecord.mp hr
  · exact absurd pending (h _)
  · exact ⟨r, hr, pending, rfl⟩

theorem stockKept_create {s : State} {make : Nat → Record} (h : ∀ n, (make n).verdict ≠ some .pending) :
    StockKept s (s.create make) :=
  ⟨rfl, fun _ => le_rfl, .inl rfl, rfl, rfl, .refl _, pendingsFrom_create h⟩

/-- An advice opens a record, neither PENDING nor in INTAKE (R121). -/
theorem queuesKept_advised (s : State) (tag : Tag) (a : Advice) : QueuesKept s (s.create (advisedRecord tag a)) := by
  refine .of_calm (.same rfl) (.of_stock (stockKept_create fun _ => nofun) rfl rfl rfl fun r hr intake => ?_)
  obtain rfl | hr := mem_insertRecord.mp hr
  · cases intake
  · exact ⟨r, hr, intake, rfl⟩

theorem quiet_atClose (r : Record) : Quiet r r.atClose := by
  unfold Record.atClose
  split
  · exact ⟨rfl, id, nofun, rfl⟩
  · exact .refl r

theorem queuesKept_wipe (s : State) : QueuesKept s s.wipe :=
  .of_calm (.same (by simp [seqView, State.wipe])) (.of_records (.of_subset (by simp [State.wipe])) (capacities_wipe s)
    (fun p => by simp [State.wipe]) (by simp [State.wipe]) rfl rfl)

/-! ## The attachment of an advice -/

/-- The record with its advice in its pocket, before its job is queued (R124). -/
def advisedIn (s : State) (r : Record) (a : Advice) (m : AdviceMark) : State :=
  let t := (s.update r.receipt fun x => { x with advice := some a, mark := m, state := .held, grace := .none }).raiseDeclared
    r.location a.declared
  { t with cr := { t.cr with totals := { t.cr.totals with
    declared := saturate Config.sumLimit (t.cr.totals.declared + a.declared) } } }

theorem attach_eq (s : State) (r : Record) (a : Advice) (m : AdviceMark) :
    s.attach r a m = (advisedIn s r a m).queueJob r.receipt r.tag := rfl

theorem used_raiseDeclared (s : State) (l : Location) (n : Nat) (p : Fin 21) :
    (s.raiseDeclared l n).pcc.pockets[p].used = s.pcc.pockets[p].used := by
  cases l with
  | pocket q => exact used_set (x := { s.pcc.pockets[q] with declared := s.pcc.pockets[q].declared + n }) rfl p
  | absent | drawer | out => rfl

/-- An attachment takes a free job place, which a drop in ROUTE leaves none of (R54, R124, R127). -/
theorem settled_attach {s : State} {r : Record} {a : Advice} {m : AdviceMark} (reg : registerRight s)
    (hr : r ∈ s.cr.records) (h : r.state = .grace ∨ r.state = .held ∧ r.mark = .none) (hm : m ≠ .none)
    (free : 2 ≤ s.freePlaces) (hs : settled s) : settled (s.attach r a m) := by
  have records : (advisedIn s r a m).cr.records =
      updateReceipt s.cr.records r.receipt fun x => { x with advice := some a, mark := m, state := .held, grace := .none } := by
    simp [advisedIn]
  have calm : Calm s (advisedIn s r a m) :=
    .of_records (.of_update records fun x => ⟨rfl, id, nofun, rfl⟩) (by simp [advisedIn])
      (fun p => (used_raiseDeclared (s.update _ _) r.location a.declared p).le) (by simp [advisedIn]) (by simp [advisedIn])
      (by simp [advisedIn])
  have free : 2 ≤ 6 - s.wau.queue.length := free
  exact attach_eq s r a m ▸ settled_queueJob
    (r := { r with advice := some a, mark := m, state := .held, grace := .none })
    (records ▸ mem_updateReceipt.mpr ⟨r, hr, (if_pos rfl).symm⟩) ((Change.attach hr h hm).keeps_registerRight reg)
    (calm.settled hs) (by rw [calm.jobs]; omega)

theorem queuesKept_attach {s : State} {r : Record} {a : Advice} {m : AdviceMark} (reg : registerRight s)
    (hr : r ∈ s.cr.records) (h : r.state = .grace ∨ r.state = .held ∧ r.mark = .none) (hm : m ≠ .none)
    (free : 2 ≤ s.freePlaces) : QueuesKept s (s.attach r a m) :=
  ⟨.same (by simp [seqView]), fun _ => settled_attach reg hr h hm free⟩

theorem queuesKept_advise {s : State} (reg : registerRight s) (tag : Tag) (a : Advice) :
    QueuesKept s (s.advise tag a).1 := by
  unfold State.advise
  split
  next =>
    split
    · exact queuesKept_advised s tag a
    · exact .refl s
  next r e =>
    obtain ⟨hr, -⟩ := mem_of_claimant e
    cases hst : r.state with
    | advised | missing => exact queuesKept_update s _ fun _ => ⟨rfl, id, id, rfl⟩
    | intake | staged | overdue => exact .refl s
    | grace =>
      dsimp only
      split
      next free => exact queuesKept_attach reg hr (.inl hst) (by simp) free
      next => exact .refl s
    | held =>
      dsimp only
      split
      next => exact .refl s
      next mark =>
        split
        next free =>
          exact (queuesKept_attach (a := a) (m := .late) reg hr (.inr ⟨hst, not_not.mp mark⟩) (by simp) free).trans
            (.same (by simp [seqView]) (by simp [queuesView, stockView]))
        next => exact .refl s

/-! ## Capacities -/

/-- A capacity is clamped to 24, and pocket 0's is not written (R71, R75). -/
theorem queuesKept_setCapacity (s : State) {p : Fin 21} (h : p ≠ 0) (n : Nat) :
    QueuesKept s (s.setPocket p { s.pcc.pockets[p] with capacity := min Config.maxCapacity n }) := by
  refine ⟨.same rfl, fun _ hs => ?_⟩
  obtain ⟨⟨zero, all⟩, jobs, requests⟩ := stock_of_settled hs
  have other : p.val ≠ 0 := fun e => h (Fin.ext e)
  refine settled_of_stock (s := s) ⟨⟨?_, fun q => ⟨?_, ?_⟩⟩, jobs, requests⟩ rfl rfl rfl rfl
    (RecordsQuiet.of_eq rfl).intakes hs
  · simpa [Vector.getElem_set_ne, other] using zero
  · exact forall_set (P := fun x : Pocket => x.capacity ≤ 24) (fun i => (all i).1) p (Nat.min_le_left _ _) q
  · have used := used_set (v := s.pcc.pockets) (p := p)
      (x := { s.pcc.pockets[p] with capacity := min Config.maxCapacity n }) rfl q
    exact (Nat.add_le_add_right used.le _).trans (all q).2

end Sys2Proof.QueueProofs
end

section
/-! PROOF. The hold, the room and the queues under the requests and the plain events. -/

namespace Sys2Proof.QueueProofs

open Sys2Proof.Machine Sys2Proof.Safety Sys2Proof.CustodyProofs

/-! ## Requests -/

/-- The chute is tested again after a change that it alone may answer. -/
theorem QueuesKept.retest {s t : State} (h : QueuesKept s t) : QueuesKept s t.retest := h.trans (queuesKept_retest t)

section Requests

variable {s t : State} {l : Line} {name : BitVec 32} {owner : State → State × Answer}

theorem queuesKept_takeRequest (h : takeRequest s l name owner = .next t) (ho : QueuesKept s (owner s).1) :
    QueuesKept s t := by
  rw [takeRequest_eq] at h
  obtain rfl := Host.Outcome.next.inj h
  split
  · exact ho.trans (.same (by simp [seqView]) (by simp [queuesView, stockView]))
  · exact .refl s

theorem queuesKept_writeSetting (h : writeSetting s name owner = .next t) (ho : QueuesKept s (owner s).1) :
    QueuesKept s t := by
  refine queuesKept_takeRequest h ?_
  split
  · exact .refl s
  · exact ho

theorem queuesKept_restartIdle (s : State) : QueuesKept s s.restartIdle :=
  .same (by simp [seqView]) (by simp [queuesView, stockView])

theorem queuesKept_takePanel (h : takePanel s name owner = .next t)
    (ho : QueuesKept s.restartIdle (owner s.restartIdle).1) : QueuesKept s t :=
  queuesKept_takeRequest h ((queuesKept_restartIdle s).trans ho)

theorem queuesKept_takeEvent {f : State → State} (h : takeEvent s f = .next t) (hf : QueuesKept s (f s)) :
    QueuesKept s t := by
  rw [takeEvent_eq] at h
  obtain rfl := Host.Outcome.next.inj h
  split
  · exact .refl s
  · exact hf

end Requests

theorem queuesKept_withdrawAdvice (s : State) (tag : Tag) (wanted : RecState) :
    QueuesKept s (s.withdrawAdvice tag wanted).1 := by
  unfold State.withdrawAdvice
  split
  · exact .refl s
  split
  · exact .refl s
  split
  · exact .refl s
  split
  · exact .refl s
  · exact (queuesKept_remove s _).retest

theorem queuesKept_confirm (s : State) (n counted : Nat) (ids : List (BitVec 24)) :
    QueuesKept s (s.confirm n counted ids).1 := by
  unfold State.confirm
  split
  · exact .refl s
  split
  · exact .refl s
  split
  · exact .refl s
  split
  · exact .refl s
  split
  · exact .refl s
  · exact (queuesKept_remove s n).retest

theorem queuesKept_credential (s : State) (id : BitVec 24) : QueuesKept s (s.credential id).1 := by
  unfold State.credential
  (repeat' split) <;> exact .same rfl rfl

theorem queuesKept_afterStaging {s t : State} (q : Fin 21) (h : QueuesKept s t) : QueuesKept s (t.afterStaging q) := by
  unfold State.afterStaging
  split
  · exact h.retest
  · exact h

/-- A release request is offered where fewer than three stand (R83, R143). -/
theorem queuesKept_release {s : State} (q : Fin 21) (free : ¬ Config.releasePlaces ≤ s.releaseCount) :
    QueuesKept s (s.enqueue (releaseRequest q)) :=
  queuesKept_enqueue nofun (Nat.lt_of_not_le free)

/-- A request other than JAMC leaves the hold, the room and the queues right. -/
theorem queuesKept_runRequest {i : Instr} {s t : State} (reg : registerRight s) (notJamc : ∀ id d, i ≠ .jamc id d)
    (h : runRequest i s = .next t) : QueuesKept s t := by
  cases i
  all_goals dsimp only [runRequest] at h
  case jamc => exact absurd rfl (notJamc _ _)
  case advs =>
    refine queuesKept_takeRequest h ?_
    split
    · exact .refl s
    · exact queuesKept_advise reg _ _
  case wdrw | retr => exact queuesKept_takeRequest h (queuesKept_withdrawAdvice _ _ _)
  case cnfm => exact queuesKept_takeRequest h (queuesKept_confirm _ _ _ _)
  case nopn =>
    refine queuesKept_takeRequest h ?_
    split
    · exact .refl s
    · exact QueuesKept.retest (.same rfl rfl)
  case ncls =>
    refine queuesKept_takeRequest h ?_
    split
    · exact .refl s
    · exact QueuesKept.retest (.of_quiet (.of_map rfl quiet_atClose) rfl rfl rfl)
  case wipe =>
    refine queuesKept_takeRequest h ?_
    split
    · exact .refl s
    · exact (queuesKept_wipe s).retest
  case ackl =>
    refine queuesKept_takeRequest h ?_
    split
    · exact .refl s
    split
    · exact .refl s
    · exact QueuesKept.retest (.same rfl rfl)
  case home =>
    refine queuesKept_takeRequest h ?_
    split
    · exact .refl s
    split
    · exact .refl s
    split
    · exact .refl s
    · exact queuesKept_beginSearch s
  case wndw =>
    refine queuesKept_takeRequest h ?_
    split
    · exact .refl s
    · exact queuesKept_afterPermit (.same rfl rfl)
  case rnga | genr => exact queuesKept_writeSetting h (QueuesKept.retest (.same rfl rfl))
  case pcap =>
    refine queuesKept_writeSetting h ?_
    split
    next => exact .refl s
    next p e => exact queuesKept_setCapacity s (SettingsProofs.storagePocketOf_eq_some_iff.mp e).2 _
  case prtv =>
    refine queuesKept_takePanel h ?_
    split
    · exact .refl _
    split
    · exact .refl _
    split
    · exact .refl _
    split
    next => exact .refl _
    next free => exact queuesKept_release _ free
  case pcls =>
    refine queuesKept_takePanel h ?_
    split
    · exact .refl _
    · exact queuesKept_closeSession _
  case cred => exact queuesKept_takePanel h (queuesKept_credential ..)
  case notg =>
    refine queuesKept_takePanel h ?_
    split
    · exact .refl _
    split
    · exact .refl _
    split
    · exact .refl _
    split
    · exact .refl _
    · exact queuesKept_afterStaging _ ((queuesKept_stage ..).trans (.same rfl rfl))
  case read | ftag | lcus | lsta | lpkt | pkts | ntot | stat | clrs | timwRead | time =>
    exact queuesKept_takeRequest h
      (.same (by (repeat' split) <;> simp [seqView, ok, refuse]) (by (repeat' split) <;> simp [queuesView, stockView, ok, refuse]))
  case rngw | denw | tolw | rost | polw | timw | save =>
    exact queuesKept_writeSetting h
      (.same (by (repeat' split) <;> simp [seqView, ok, refuse]) (by (repeat' split) <;> simp [queuesView, stockView, ok, refuse]))
  -- no other command is a request: it has no effect here
  all_goals exact Host.Outcome.next.inj h ▸ .refl _

/-! ## The drawer, the reader and the hatch -/

/-- READY goes on to LOADING with its hold (R94, R99). -/
theorem queuesKept_enterLoading {s : State} (h : s.intake.phase = .ready) : QueuesKept s s.enterLoading := by
  refine ⟨seqKept_enterLoading h, fun _ hs => ?_⟩
  have held : s.pcc.hold = some ⟨0, 4⟩ := by simpa [holdOpen, stageOf, h] using hs.1
  exact settled_of_entered (stock_congr (s := s) rfl (stock_of_settled hs)) (.inl held) (.inl rfl)

theorem queuesKept_enterIdentify {s : State} (h : s.intake.phase = .loading) : QueuesKept s s.enterIdentify :=
  ⟨seqKept_enterIdentify h, fun _ hs =>
    have hold := hold_of_entered hs (.inl h)
    settled_of_entered (stock_congr (s := s) rfl (stock_of_settled hs)) hold (.inr rfl)⟩

/-- LOADING ends without a bag (R99). -/
theorem queuesKept_emptyLoading {s t : State} (h : s.intake.phase = .loading) (takeUp : t.intake.takeUp = s.intake.takeUp)
    (stock : stockView t = stockView s) : QueuesKept s t.testChute :=
  ⟨seqKept_emptyLoading h (congrArg (fun v => v.2.2.2.1) stock) takeUp, fun _ hs =>
    settled_testChute (stock_congr stock (stock_of_settled hs))⟩

theorem queuesKept_drawerReadTaken {s t : State} (h : execDrawerReadTaken s = .next t) : QueuesKept s t := by
  refine queuesKept_takeEvent h ?_
  split
  next => exact .refl s
  next read _ =>
    have same : ∀ x : Readings, x.size = s.intake.readings.size → x.chosen = s.intake.readings.chosen →
        QueuesKept s (s.setIntake { s.intake with
          reader := { s.intake.reader with holding := .none }, readings := x }) := fun x size chosen =>
      .of_calm (seqKept_readings rfl rfl size chosen rfl)
        (.of_stock (.same rfl) rfl chosen rfl (RecordsQuiet.of_eq rfl).intakes)
    refine same _ ?_ ?_ <;> split <;> simp [takeRead_keeps]

theorem queuesKept_light (s : State) (l : Lamp) : QueuesKept s (s.light l) := .same rfl rfl

theorem queuesKept_raise (s : State) (f : StatusFlag) : QueuesKept s (s.raise f) := .same rfl rfl

theorem queuesKept_scanClaimant (s : State) (t : Tag) (q : Fin 21) : QueuesKept s (s.scanClaimant t q) := by
  unfold State.scanClaimant
  split
  next => exact queuesKept_light s _
  next r _ =>
    cases r.state with
    | staged | overdue =>
      dsimp only
      split
      next fits => exact (queuesKept_giveBack fits).trans (queuesKept_light _ _)
      next => exact queuesKept_light s _
    | held => exact (queuesKept_raise s _).trans (queuesKept_light _ _)
    | grace | advised | missing | intake => exact queuesKept_light s _

theorem queuesKept_scan (s : State) (t : Tag) (atMs : Nat) (q : Fin 21) : QueuesKept s (s.scan t atMs q) := by
  unfold State.scan
  split
  next => exact queuesKept_light s _
  next =>
    split
    next r _ => exact queuesKept_afterStaging q ((queuesKept_stage s r q).trans (.same rfl rfl))
    next => exact queuesKept_scanClaimant s t q

theorem queuesKept_hatchRead (s : State) (x : TagRead) (atMs : Nat) : QueuesKept s (s.hatchRead x atMs) := by
  have idle := queuesKept_restartIdle s
  unfold State.hatchRead
  split
  next => exact .refl s
  next =>
    split
    next => split; exacts [queuesKept_light s _, .refl s]
    next => split; exacts [idle.trans (queuesKept_scan _ _ _ _), idle]

/-! ## The drum -/

/-- The drum alone changes, in a way that the sequencer's side allows. -/
theorem QueuesKept.of_drum {s t : State} (seq : SeqKept s t) (intake : t.intake = s.intake) (cr : t.cr = s.cr)
    (wau : t.wau = s.wau) (pockets : t.pcc.pockets = s.pcc.pockets) (hold : t.pcc.hold = s.pcc.hold)
    (queue : t.pcc.queue = s.pcc.queue) : QueuesKept s t :=
  .of_calm seq (.same (by simp [queuesView, stockView, intake, cr, wau, pockets, hold, queue]))

theorem queuesKept_moveStep {s : State} (m : Move) (dir : Dir) (h : ∀ x, s.pcc.drum ≠ .homing x) :
    QueuesKept s (s.moveStep m dir) := by
  unfold State.moveStep
  split
  · split
    · exact .refl s
    · split
      · exact queuesKept_arriveAt _ h
      · exact .same rfl rfl
  · exact queuesKept_carouselFault s

theorem queuesKept_searchStep (s : State) (x : Search) (dir : Dir) : QueuesKept s (s.searchStep x dir) := by
  unfold State.searchStep
  split
  · exact queuesKept_carouselFault s
  · split
    · exact queuesKept_carouselFault s
    · exact .of_drum (fun hs => ⟨⟨hs.1, fun _ => ⟨_, rfl⟩⟩, rfl⟩) rfl rfl rfl rfl rfl rfl

theorem queuesKept_encoderStep {s t : State} {dir : Dir} (h : execEncoderStep dir s = .next t) : QueuesKept s t := by
  refine queuesKept_takeEvent h (QueuesKept.trans (t := s.setPins { s.pins with refMark := false }) (.same rfl rfl) ?_)
  dsimp only
  split
  · exact queuesKept_carouselFault _
  · exact queuesKept_carouselFault _
  next m _ e => exact queuesKept_moveStep m dir fun x hx => by cases e.symm.trans hx
  · exact queuesKept_searchStep _ _ _
  · split
    · exact queuesKept_carouselFault _
    · exact .refl _
  · exact .refl _

theorem queuesKept_settleExpiry {s t : State} (h : execSettleExpiry s = .next t) : QueuesKept s t := by
  refine queuesKept_takeEvent h ?_
  split
  next m e =>
    exact .of_drum (seqKept_drum (by simp) (by simp) (by simp) (by simp) fun hs => takeUp_of_drum hs (by simp [e]))
      (by simp) (by simp) (by simp) (by simp) (by simp) (by simp)
  all_goals exact .refl s

theorem queuesKept_hatchOpens (s : State) : QueuesKept s s.hatchOpens := by
  have pins : QueuesKept s (s.setPins { s.pins with hatchShut := false }) := .same rfl rfl
  unfold State.hatchOpens
  dsimp only
  split
  · exact .same rfl rfl
  · exact pins
  · split
    · exact pins.trans (queuesKept_carouselFault _)
    · exact pins.trans (queuesKept_carouselFault _)
    · exact pins.trans (queuesKept_carouselFault _)
    · exact pins
    · exact pins
    · exact pins

theorem queuesKept_hatchShuts (s : State) : QueuesKept s s.hatchShuts := by
  have pins : QueuesKept s (s.setPins { s.pins with hatchShut := true }) := .same rfl rfl
  unfold State.hatchShuts
  dsimp only
  split
  · exact pins
  · exact QueuesKept.trans (.same (by simp [seqView]) (by simp [queuesView, stockView])) (queuesKept_interlockSecured _)
  · exact pins.trans (queuesKept_interlockSecured _)

/-! ## Every plain event -/

/-- The jobs, the value taken and the route decision (R54, R56, R58, R104, R106). -/
def jobEvent : Instr → Bool
  | .scaleReading _ _ | .weighTimerExpiry | .routeDecision | .jobStart | .jobCompletion => true
  | _ => false

theorem settled_jobEvent {c : Instr} {s t : State} (jobs : jobEvent c = true) (reg : registerRight s) (drop : dropRight s)
    (hs : settled s) (h : exec c s = .next t) : settled t := by
  have event : ∀ {f : State → State}, takeEvent s f = .next t → settled (f s) → settled t := fun h hf => by
    rw [takeEvent_eq] at h
    obtain rfl := Host.Outcome.next.inj h
    split
    · exact hs
    · exact hf
  have ⟨hold, stock, _⟩ := hs
  cases c
  case scaleReading value steady =>
    refine event h ?_
    split
    next e =>
      split
      · exact settled_takeValue reg drop hs (phase_of_weighing e) _ _
      · exact (Calm.same (t := s.setIntake { s.intake with
          readings := { s.intake.readings with lastReading := some value } }) rfl).settled hs
    next => exact hs
  case weighTimerExpiry =>
    refine event h ?_
    split
    next e => exact settled_takeValue reg drop hs (phase_of_weighing e) _ _
    next => exact hs
  case routeDecision => exact event h (settled_takeRoute reg drop hold stock)
  case jobStart =>
    obtain ⟨room, jobs, requests⟩ := stock
    exact event h (settled_workOn reg drop hold room (jobsQueued_of_open jobs) requests)
  case jobCompletion =>
    refine event h ?_
    split
    next working => exact settled_jobCompletion reg drop hs working
    next => exact hs
  -- the other commands are not of the jobs
  all_goals cases jobs

/-- Every other plain event leaves the hold, the room and the queues right. -/
theorem queuesKept_event {c : Instr} {s t : State} (plain : plainEvent c = true) (other : jobEvent c = false)
    (h : exec c s = .next t) : QueuesKept s t := by
  cases c
  case resetHold =>
    obtain rfl := Host.Outcome.next.inj h
    exact .same (t := { s with
      resetHeld := true, ls := { s.ls with branch := {}, panel := {}, attention := false } }) rfl rfl
  case encoderStep => exact queuesKept_encoderStep h
  case drawerReadTaken => exact queuesKept_drawerReadTaken h
  case settleExpiry => exact queuesKept_settleExpiry h
  all_goals dsimp only [exec] at h
  case graceExpiry receipt =>
    refine queuesKept_takeEvent h ?_
    unfold State.expireGrace
    split
    · exact QueuesKept.trans (t := s.update receipt fun r => { r with state := .held, grace := .none })
        (queuesKept_update s _ fun _ => ⟨rfl, id, nofun, rfl⟩) (queuesKept_raise _ _)
    · exact .refl s
  case handoverExpiry receipt =>
    refine queuesKept_takeEvent h ?_
    unfold State.expireHandover
    split
    · exact QueuesKept.trans (t := s.update receipt fun r => { r with state := .overdue })
        (queuesKept_update s _ fun _ => ⟨rfl, id, nofun, rfl⟩) (.same rfl rfl)
    · exact .refl s
  case drawerOpened =>
    refine queuesKept_takeEvent h (QueuesKept.trans (t := s.setPins { s.pins with drawerShut := false }) (.same rfl rfl) ?_)
    dsimp only
    split
    next e => exact queuesKept_enterLoading e
    next => exact .refl _
  case drawerShut bagPresent beams =>
    refine queuesKept_takeEvent h (QueuesKept.trans
      (t := s.setPins { s.pins with drawerShut := true, bagPresent, beams }) (.same rfl rfl) ?_)
    dsimp only
    split
    next e =>
      split
      · exact queuesKept_enterIdentify e
      · exact queuesKept_emptyLoading e rfl rfl
    next => exact .refl _
  case tipTimerExpiry =>
    refine queuesKept_takeEvent h ?_
    split
    next e => exact queuesKept_enterJammed (by simp [e.1, hasRecord])
    next => exact .refl s
  case hatchScan atMs =>
    refine queuesKept_takeEvent h ?_
    split
    · exact .refl s
    next x _ =>
      exact QueuesKept.trans (t := s.setRc { s.rc with reader := { s.rc.reader with holding := .none } }) (.same rfl rfl)
        (queuesKept_hatchRead _ x atMs)
  case carouselServe => exact queuesKept_takeEvent h (queuesKept_serve s)
  case arrivalTimerExpiry | homingTimerExpiry =>
    refine queuesKept_takeEvent h ?_
    split
    · exact queuesKept_carouselFault s
    all_goals exact .refl s
  case referenceMark =>
    refine queuesKept_takeEvent h (QueuesKept.trans (t := s.setPins { s.pins with refMark := true }) (.same rfl rfl) ?_)
    dsimp only
    split
    · exact queuesKept_homed _
    all_goals exact .refl _
  case hatchShutSensor shut =>
    refine queuesKept_takeEvent h ?_
    split
    · exact queuesKept_hatchShuts s
    · exact queuesKept_hatchOpens s
  case unopenedTimerExpiry =>
    refine queuesKept_takeEvent h ?_
    split
    · exact QueuesKept.trans (.same (by simp [seqView]) (by simp [queuesView, stockView])) (queuesKept_serve _)
    · exact .refl s
  case idleExpiry =>
    refine queuesKept_takeEvent h ?_
    split
    · exact queuesKept_leaveOpen s
    all_goals exact .refl s
  case timeLockContact => exact queuesKept_takeEvent h (queuesKept_afterPermit (.same rfl rfl))
  case tagReadComplete reader read =>
    exact queuesKept_takeEvent h (.same (by cases reader <;> simp [seqView, State.setReader])
      (by cases reader <;> simp [queuesView, stockView, State.setReader]))
  case saveCompletion | frameGap | replyEnd | drawerTimerExpiry | lampExpiry | pairingExpiry | clockTick =>
    exact queuesKept_takeEvent h (.same (by (repeat' split) <;> simp [seqView])
      (by (repeat' split) <;> simp [queuesView, stockView]))
  case scaleReading | weighTimerExpiry | routeDecision | jobStart | jobCompletion => cases other
  -- the other commands are requests, or not plain
  all_goals simp [plainEvent, Instr.encode] at plain

end Sys2Proof.QueueProofs
end

section
/-! PROOF. The hold, the room and the queues at the tag window's end, at the tip, at JAMC and at a restart, and from all of it:
every step keeps them right (R52 to R54, R71, R74, R83, R94, R103, R109 to R116). -/

namespace Sys2Proof.QueueProofs

open Sys2Proof.Machine Sys2Proof.Safety Sys2Proof.CustodyProofs Sys2Proof.SettingsProofs

/-- Only the register changes, and no record becomes PENDING. -/
theorem StockKept.of_pendings {s t : State} (pendings : PendingsFrom s t) (pcc : t.pcc = s.pcc) (wau : t.wau = s.wau) :
    StockKept s t :=
  ⟨by rw [pcc], fun p => by rw [pcc], .inl (by rw [pcc]), by rw [wau], by rw [wau], pcc ▸ .refl _, pendings⟩

/-! ## Identification -/

/-- The drop's record is not PENDING when it is opened (R5). -/
theorem stockKept_openRecord {s t : State} (h : s.openRecord = some t) : StockKept s t := by
  obtain ⟨_, _, _, -, -, rfl⟩ | ⟨r, -, -, rfl⟩ := openRecord_cases h
  · exact stockKept_create fun _ => nofun
  · refine .of_pendings (fun r' hr' pending => ?_) rfl rfl
    obtain ⟨x, hx, rfl⟩ := mem_updateReceipt.mp hr'
    exact ⟨x, hx, by split at pending <;> exact pending, by split <;> rfl⟩

/-- After the tag window the drop goes on with the hold of 4 units of pocket 0, or jams without one (R103, R117). -/
theorem settled_afterWindow {s : State} (stock : stockRight s) (off : s.intake.takeUp = false)
    (hold : s.pcc.hold = some ⟨0, 4⟩ ∨ s.pcc.hold = none) : settled s.afterWindow := by
  unfold State.afterWindow
  dsimp only
  split
  next held =>
    have units : s.pcc.hold = some ⟨0, 4⟩ := hold.resolve_right fun none => by simp [none] at held
    exact settled_of_held (stock_congr (s := s) rfl stock) units (.inr rfl)
  next => exact settled_enterJammed (stock_congr (s := s) rfl stock) off

theorem settled_tagWindowExpiry {s t : State} (seq : seqRight s) (hs : settled s)
    (h : execTagWindowExpiry s = .next t) : settled t := by
  obtain rfl | h := whenRunning_next h
  · exact hs
  split at h
  next window =>
    split at h
    next => cases h
    next u opened =>
      obtain rfl := Host.Outcome.next.inj h
      have frame : u.intake = s.intake ∧ u.pcc = s.pcc := by
        obtain ⟨_, _, _, -, -, rfl⟩ | ⟨_, _, _, rfl⟩ := openRecord_cases opened <;> exact ⟨rfl, rfl⟩
      obtain ⟨intake, pcc⟩ := frame
      have off := takeUp_of_phase seq.1 (by simp [window.1]) (by simp [window.1])
      exact settled_afterWindow ((stockKept_openRecord opened).stock (stock_of_settled hs)) (intake ▸ off)
        (pcc ▸ hold_of_entered hs (.inr window.1))
  next => exact Host.Outcome.next.inj h ▸ hs

/-! ## The tip -/

theorem stockKept_prePositionOrServe (s : State) : StockKept s s.prePositionOrServe := by
  refine .of_requests (by simp) (by simp) (by simp) (by simp) ?_
  unfold State.prePositionOrServe
  split
  · split
    · rw [State.startMove_pcc_queue]
    · exact .refl _
  · exact sources_serve s

/-- The room that the chosen pocket held is the bag's (R74, R109). -/
theorem stockRight_tipped {s : State} {r : Record} {p : Fin 21} (hs : settled s) (tip : s.intake.phase = .tip)
    (record : s.intakeRecord = some r) (chosen : s.intake.readings.chosen = some p) :
    stockRight ((s.setHold none).place r p) := by
  obtain ⟨hold, stock, -⟩ := hs
  obtain ⟨q, n, ofBag, held, size⟩ : ∃ q n, s.intake.readings.chosen = some q ∧ s.pcc.hold = some ⟨q, n⟩ ∧
      ∀ r ∈ s.cr.records, r.state = .intake → r.size = some n := by
    simpa [holdOpen, stageOf, tip] using hold
  obtain rfl : p = q := Option.some.inj (chosen.symm.trans ofBag)
  obtain ⟨hmem, hst⟩ := mem_of_intakeRecord record
  refine stockRight_place (s := s.setHold none) ?_ ((stockKept_release s).stock stock)
  have units := (stock.1.2 p).2
  have before : s.pcc.heldUnits p = n := by simp [Carousel.heldUnits, held]
  rw [heldUnits_of_none rfl, size r hmem hst, Option.getD_some, Nat.add_zero]
  exact before ▸ units

theorem stockKept_freeStation (s : State) : StockKept s s.freeStation :=
  .of_requests rfl rfl rfl rfl (List.filter_sublist.map _)

theorem stockKept_rememberIntake (s : State) (p : Fin 21) (range : Option RangeRef) :
    StockKept s (s.setPcc (s.pcc.rememberIntake p range)) := by
  unfold Carousel.rememberIntake
  split <;> exact .same rfl

/-- After the placement the station is freed and the chute tested (R109). -/
theorem settled_completeTip {s : State} {r : Record} {p : Fin 21} (placed : stockRight ((s.setHold none).place r p)) :
    settled (s.completeTip r p) := by
  unfold State.completeTip
  generalize (s.setHold none).place r p = u at placed
  have freed := (stockKept_freeStation u).stock placed
  have remembered := (stockKept_rememberIntake u.freeStation p r.range).stock freed
  exact settled_testChute ((stockKept_prePositionOrServe _).stock (stock_congr rfl remembered))

theorem settled_tipCompletion {s t : State} (hs : settled s) (h : exec .tipCompletion s = .next t) : settled t := by
  dsimp only [exec, execTipCompletion] at h
  rw [takeEvent_eq] at h
  obtain rfl := Host.Outcome.next.inj h
  split
  · exact hs
  split
  next r p tip record chosen => exact settled_completeTip (stockRight_tipped hs tip record chosen)
  next => exact hs

/-! ## JAMC -/

/-- The bag of a jam is placed where it fits, or is taken out (R73, R111 to R113). -/
theorem stockRight_settleJam {s : State} {r : Record} {d : Disposition} (stock : stockRight s)
    (fits : s.noRoomFor r d = false) : stockRight (s.settleJam r d) := by
  cases d with
  | pocket p =>
    have unjammed : RecordsQuiet s (s.update r.receipt fun x => { x with jammed := false }) :=
      .of_update rfl fun _ => ⟨rfl, id, id, rfl⟩
    exact stockRight_place (s := s.update r.receipt fun x => { x with jammed := false })
      (used_le_of_fits stock.1 (by simpa [State.noRoomFor] using fits))
      ((StockKept.of_pendings unjammed.pendings rfl rfl).stock stock)
  | removed =>
    have takenOut : RecordsQuiet s (s.settleJam r .removed) := .of_update rfl fun _ => ⟨rfl, id, nofun, rfl⟩
    exact (StockKept.of_pendings takenOut.pendings rfl rfl).stock stock

theorem settled_answer {s : State} (l : Line) (name : BitVec 32) (a : Answer) (hs : settled s) :
    settled (s.answer l name a) := (Calm.same (by simp [queuesView, stockView])).settled hs

theorem settled_jamc {id : BitVec 24} {d : BitVec 8} {s t : State} (hs : settled s) (h : execJamc id d s = .next t) :
    settled t := by
  unfold execJamc at h
  rw [takeRequest_eq] at h
  obtain rfl := Host.Outcome.next.inj h
  split
  next =>
    refine settled_answer _ _ _ ?_
    split
    · exact hs
    split
    · exact hs
    split
    · exact hs
    split
    · exact hs
    split
    next => exact hs
    next room => exact settled_testChute (stock_congr rfl (stockRight_settleJam (stock_of_settled hs) (by simpa using room)))
  next => exact hs

/-! ## Restart -/

section Restart

variable {straps : Straps} {pins : Levels} {n : Nat} {answers : Bool}

/-- The capacities after a restart are those of the settings loaded, within their ranges (R71, R178). -/
theorem capacity_restartRestored (s : State) (straps : Straps) (pins : Levels) (n : Nat) (answers lost : Bool) :
    ∃ x : SettingValues, settingsLegal x ∧
      ∀ p : Fin 21, (restartRestored s straps pins n answers lost).pcc.pockets[p].capacity = x.capacity p := by
  refine ⟨_, settingsLegal_loadSettings (s.cold straps pins n).ss.straps.autoloadOff answers
    (Memory.readMany (s.cold straps pins n).ss.eeprom 0 imageLength), fun p => ?_⟩
  cases lost <;>
    simp [restartRestored, restartLoaded, State.restore, State.restartHandovers, State.loadImage, State.install,
      State.withTimers, State.setRecords, State.setRc]

theorem capacity_legal {x : SettingValues} (h : settingsLegal x) : x.capacity 0 = 24 ∧ ∀ p, x.capacity p ≤ 24 := by
  obtain ⟨-, -, -, capacities, -⟩ := settingsLegal_iff.mp h
  refine ⟨rfl, fun p => ?_⟩
  unfold SettingValues.capacity
  split
  · exact le_rfl
  · exact capacities ⟨p.val - 1, by omega⟩

/-- No pocket holds more after a restart, and a lost store leaves all of them empty (R26, R27). -/
theorem used_restartRestored (s : State) (lost : Bool) (p : Fin 21) :
    (restartRestored s straps pins n answers lost).pcc.pockets[p].used ≤ s.pcc.pockets[p].used := by
  cases lost with
  | false => exact (restartRestored_pockets s straps pins n answers p).1.le
  | true => simp [restartRestored, State.restore, State.restartHandovers, State.setRc]

theorem roomRight_restartRestored {s : State} (lost : Bool) (room : roomRight s) :
    roomRight (restartRestored s straps pins n answers lost) := by
  obtain ⟨x, legal, capacity⟩ := capacity_restartRestored s straps pins n answers lost
  obtain ⟨zero, all⟩ := capacity_legal legal
  refine ⟨(capacity 0).trans zero, fun p => ⟨(capacity p).trans_le (all p), ?_⟩⟩
  have cold := coldStart_restartRestored s straps pins n answers lost
  have used := used_restartRestored (straps := straps) (pins := pins) (n := n) (answers := answers) s lost p
  have before := (room.2 p).2
  rw [heldUnits_of_none cold.hold]
  omega

/-- There are no more PENDING records than jobs: their jobs differ in the receipt (R3, R53). -/
theorem length_pendings_le {s : State} (ordered : receiptsOrdered s) (h : pendingsQueued s) :
    (s.cr.records.filter fun r => r.verdict = some .pending).length ≤ s.wau.queue.length := by
  have distinct : ((s.cr.records.filter fun r => r.verdict = some .pending).map jobOf).Nodup :=
    List.pairwise_map.mpr (((rising_of_receiptsOrdered ordered).filter _).imp fun rising same =>
      absurd (congrArg Job.receipt same) (Nat.ne_of_lt rising))
  rw [← List.length_map jobOf]
  refine (distinct.subperm fun j hj => ?_).length_le
  obtain ⟨r, hr, rfl⟩ := List.mem_map.mp hj
  obtain ⟨hmem, pending⟩ := List.mem_filter.mp hr
  exact h r hmem (by simpa using pending)

/-- With the store valid every PENDING record has its job again, and there are at most as many as before (R61). -/
theorem jobsOpen_refill_valid {s : State} (reg : registerRight s) (h : jobsOpen s) :
    jobsOpen (restartRestored s straps pins n answers false).refill := by
  obtain ⟨length, -, pendings⟩ := h
  obtain ⟨queue, works⟩ := restartRestored_jobs (straps := straps) (pins := pins) (n := n) (answers := answers) reg.1
    fun r hr => (reg.2 r hr).2
  refine ⟨?_, works, fun r' hr' pending => ?_⟩
  · rw [queue, List.length_map]
    exact (length_pendings_le reg.1 pendings).trans length
  · rw [refill_cr (receiptsOrdered_restartRestored reg.1 straps pins n answers), restartRestored_cr] at hr'
    obtain ⟨r, hr, rfl⟩ := List.mem_map.mp hr'
    obtain ⟨receipt, tag, -, verdict⟩ := restarted_keeps r (restartRestored s straps pins n answers false).cr.graceInterval
    have same : jobOf (r.restarted (restartRestored s straps pins n answers false).cr.graceInterval) = jobOf r := by
      unfold jobOf
      rw [receipt, tag]
    rw [queue, same]
    exact List.mem_map_of_mem (List.mem_filter.mpr ⟨hr, by simpa [verdict] using pending⟩)

theorem refill_of_empty {s : State} (h : s.cr.records = []) : s.refill = s := by
  unfold State.refill
  rw [h]
  rfl

/-- A lost store leaves no record and no job (R27). -/
theorem jobsOpen_refill_lost (s : State) : jobsOpen (restartRestored s straps pins n answers true).refill := by
  have cold := coldStart_restartRestored s straps pins n answers true
  have empty : (restartRestored s straps pins n answers true).cr.records = [] := rfl
  rw [refill_of_empty empty]
  unfold QueueProofs.jobsOpen worksOnQueue pendingsQueued
  rw [cold.jobs, cold.working, empty]
  simp

theorem stockRight_restartStarted {s : State} (lost : Bool) (reg : registerRight s) (stock : stockRight s) :
    stockRight (restartStarted (restartRestored s straps pins n answers lost)) := by
  obtain ⟨pcc, -, -, -, -, wau, cr⟩ := restartStarted_frame (restartRestored s straps pins n answers lost)
  have cold := coldStart_restartRestored s straps pins n answers lost
  obtain ⟨room, jobs, -⟩ := stock
  have refilled : jobsOpen (restartRestored s straps pins n answers lost).refill := by
    cases lost with
    | false => exact jobsOpen_refill_valid reg jobs
    | true => exact jobsOpen_refill_lost s
  refine ⟨roomRight_congr pcc (roomRight_restartRestored lost room), ?_, ?_⟩
  · unfold QueueProofs.jobsOpen worksOnQueue pendingsQueued
    rw [wau, cr]
    exact refilled
  · unfold requestsRight
    rw [pcc, cold.requests]
    exact ⟨Nat.zero_le _, Nat.zero_le _⟩

theorem settled_restart {lost : Bool} {s t : State} (reg : registerRight s) (hs : settled s)
    (h : execRestart straps pins lost answers n s = .next t) : settled t := by
  obtain rfl := Host.Outcome.next.inj ((execRestart_eq s straps pins lost answers n).symm.trans h)
  generalize (lost || !s.cr.storeValid) = gone
  have cold := coldStart_restartRestored s straps pins n answers gone
  obtain ⟨pcc, -⟩ := restartStarted_frame (restartRestored s straps pins n answers gone)
  obtain ⟨refilled, -⟩ := refill_frame (restartRestored s straps pins n answers gone)
  have stock := stockRight_restartStarted (straps := straps) (pins := pins) (n := n) (answers := answers) gone reg
    (stock_of_settled hs)
  have started : settled (restartStarted (restartRestored s straps pins n answers gone)) := by
    refine settled_of_unheld stock (by rw [pcc, cold.hold]) ?_
    unfold restartStarted State.startIntake
    rw [State.setIntake_intake]
    dsimp only
    split
    · exact .inr (.inr rfl)
    split
    · exact .inl rfl
    · exact .inr (.inl rfl)
  have seq : seqRight (restartStarted (restartRestored s straps pins n answers gone)) :=
    (seqRight_startIntake (by simp [State.startUpFlags, refilled, cold.requests])
      (by simp [State.startUpFlags, refilled, cold.drum])).1
  change settled (restartStarted (restartRestored s straps pins n answers gone)).secondPart
  unfold State.secondPart
  split
  · exact (queuesKept_interlockSecured _).2 seq started
  · exact started

end Restart

/-! ## Frames -/

/-- Register, drop and queues, as a frame keeps them. -/
def allRight (s : State) : Prop := bothRight s ∧ settled s

theorem allRight_answer (s : State) (l : Line) (name : BitVec 32) (a : Answer) (h : allRight s) :
    allRight (s.answer l name a) := ⟨bothRight_answer s l name a h.1, settled_answer l name a h.2⟩

theorem allRight_setReceiver (s : State) (l : Line) (x : Receiver) (h : allRight s) : allRight (s.setReceiver l x) :=
  ⟨bothRight_setReceiver s l x h.1, (Calm.same (by simp [queuesView, stockView])).settled h.2⟩

theorem settled_runRequest {i : Instr} {s t : State} (hs : allRight s) (h : runRequest i s = .next t) : settled t := by
  obtain ⟨⟨reg, drop⟩, right⟩ := hs
  by_cases jamc : ∃ id d, i = .jamc id d
  · obtain ⟨id, d, rfl⟩ := jamc
    exact settled_jamc right h
  · exact (queuesKept_runRequest reg (fun id d e => jamc ⟨id, d, e⟩) h).2 (dropRight_iff.mp drop).2 right

theorem allRight_runRequest (i : Instr) (s t : State) (hs : allRight s) (h : runRequest i s = .next t) : allRight t :=
  ⟨bothRight_runRequest i s t hs.1 h, settled_runRequest hs h⟩

/-! ## Every command -/

theorem exec_keeps_settled {c : Instr} {s t : State} (reg : registerRight s) (drop : dropRight s) (hs : settled s)
    (h : exec c s = .next t) : settled t := by
  have seq := (dropRight_iff.mp drop).2
  cases request : c.encode.isSome with
  | true => exact settled_runRequest ⟨⟨reg, drop⟩, hs⟩ (exec_eq_runRequest request s ▸ h)
  | false =>
    cases plain : plainEvent c with
    | true =>
      cases jobs : jobEvent c with
      | true => exact settled_jobEvent jobs reg drop hs h
      | false => exact (queuesKept_event plain jobs h).2 seq hs
    | false =>
      cases c
      case tipCompletion => exact settled_tipCompletion hs h
      case tagWindowExpiry => exact settled_tagWindowExpiry seq hs h
      case restart => exact settled_restart reg hs h
      case frameRejected =>
        exact (frameRejected_keeps allRight_answer allRight_setReceiver allRight_runRequest ⟨⟨reg, drop⟩, hs⟩ h).2
      case lineByteReceived =>
        exact (lineByteReceived_keeps allRight_answer allRight_setReceiver allRight_runRequest ⟨⟨reg, drop⟩, hs⟩ h).2
      -- every other command is a request or a plain event
      all_goals simp [plainEvent, request] at plain

/-- Settles O56: with the drop right the hold is said without its record, and each command keeps the parts so said: a bag
enters only a pocket that held its room or has it, a job is queued only in a free place, and a request is offered only
where its source has none too many. -/
theorem stepKeepsTheQueues : Obligations.StepKeepsTheQueues := by
  intro s t reg drop right h
  have after : dropRight t := stepKeepsTheDrop s t reg drop h
  have settledBefore := (queuesRight_iff drop).mp right
  refine (queuesRight_iff after).mpr ?_
  obtain rfl | ⟨c, rest, h⟩ := step_cases h
  · exact settledBefore
  · exact exec_keeps_settled (s := s.withPending rest) (registerRight_congr (s := s) rfl reg)
      (dropRight_congr (s := s) rfl rfl drop) ((Calm.same (s := s) rfl).settled settledBefore) h

end Sys2Proof.QueueProofs
end

section
/-! PROOF. The outputs, and the module while RESET_N is held (R81, R94, R108, R144, R183). -/

namespace Sys2Proof.CarouselProofs

open Sys2Proof.Machine Sys2Proof.Safety

/-- While RESET_N is held no command but RESTART and RESET_HOLD has an effect (R183, log 7). -/
theorem exec_held {c : Instr} {s : State} (held : s.resetHeld = true) (notHold : c ≠ .resetHold)
    (notRestart : ∀ a b x y n, c ≠ .restart a b x y n) : exec c s = .next s := by
  cases c
  case resetHold => exact absurd rfl notHold
  case restart => exact (notRestart _ _ _ _ _ rfl).elim
  -- every other command is taken only by a module that runs
  all_goals exact if_pos held

theorem carouselDrive_iff {s : State} (running : s.resetHeld = false) :
    s.carouselDrive = true ↔ (∃ m left, s.pcc.drum = .moving m left) ∨ ∃ x, s.pcc.drum = .homing (some x) := by
  cases drum : s.pcc.drum with
  | homing x => cases x <;> simp [State.carouselDrive, running, drum]
  | idle | settle _ | moving _ _ | fault => simp [State.carouselDrive, running, drum]

/-- Settles O2: each output is read off the one place that decides it, and RESET_N forces it to rest. -/
theorem outputsFollowTheStateAndRestInReset : Obligations.OutputsFollowTheStateAndRestInReset := by
  refine ⟨fun s running => ⟨?_, ?_, carouselDrive_iff running, ?_⟩, fun s => ⟨_, rfl, ?_⟩,
    fun c s held notHold notRestart => exec_held held notHold notRestart⟩
  · cases phase : s.intake.phase <;> simp [State.drawerLocked, running, phase]
  · simp [State.tipActuator, running]
  · simp [State.hatchLocked, running]
  · simp [State.drawerLocked, State.hatchLocked, State.tipActuator, State.carouselDrive]

end Sys2Proof.CarouselProofs
end

section
/-! PROOF. The operands of PCAP, TOLW, ROST and POLW, read as what they store, and the requests themselves (R50, R75, R136,
R152). -/

namespace Sys2Proof.SettingsProofs

open Sys2Proof.Machine Sys2Proof.Safety Sys2Proof.CustodyProofs

/-! ## Lists read entry by entry -/

/-- One entry that is not read refuses the whole list. -/
theorem allSome_map_eq_none {α β : Type} {l : List α} {f : α → Option β} {x : α} (hx : x ∈ l) (h : f x = none) :
    allSome (l.map f) = none := by
  refine Option.eq_none_iff_forall_ne_some.mpr fun xs e => ?_
  have mem : f x ∈ xs.map some := allSome_eq_some_iff.mp e ▸ List.mem_map_of_mem hx
  simp [h] at mem

/-- What each value has in common with the entry that it was read from, the lists have in common. -/
theorem map_eq_map_of_read {α β γ : Type} {l : List α} {xs : List β} {f : α → Option β} {g : α → γ} {k : β → γ}
    (read : allSome (l.map f) = some xs) (h : ∀ a b, f a = some b → k b = g a) : xs.map k = l.map g := by
  have values := allSome_eq_some_iff.mp read
  clear read
  induction l generalizing xs with
  | nil => simp_all
  | cons a l ih =>
    cases xs with
    | nil => simp at values
    | cons b xs =>
      simp only [List.map_cons, List.cons.injEq] at values ⊢
      exact ⟨h a b values.1, ih values.2⟩

/-! ## PCAP and TOLW -/

theorem storagePocketOf_eq_none {b : Byte} (h : b.toNat = 0 ∨ 20 < b.toNat) : storagePocketOf b = none := by
  refine Option.eq_none_iff_forall_ne_some.mpr fun p stored => ?_
  obtain ⟨number, nonzero⟩ := storagePocketOf_eq_some_iff.mp stored
  have := p.isLt
  have : p.val ≠ 0 := fun zero => nonzero (Fin.ext zero)
  omega

/-- A capacity above 24 is stored as 24 (R75). -/
theorem min_maxCapacity (n : Nat) : min Config.maxCapacity n = if 24 < n then 24 else n := by
  unfold Config.maxCapacity
  split <;> omega

theorem setPocket_capacity (s : State) (p : Fin 21) (x : Pocket) : (s.setPocket p x).pcc.pockets[p].capacity = x.capacity := by
  simp

/-- The six values are clamped to the tops of their ranges (R50). -/
theorem toleranceOf_eq (f : TolField) : toleranceOf f =
    { tare := min f.tare.toNat 999999, tareSpread := min f.tareSpread.toNat 99999
      lower := min f.lower.toNat 999999, upper := min f.upper.toNat 999999
      plausMin := min f.plausMin.toNat 200000, plausMax := min f.plausMax.toNat 200000 } := by
  simp only [toleranceOf, Nat.min_comm]

/-! ## ROST -/

theorem roleOf_eq_some_iff {b : Byte} {r : Role} : roleOf b = some r ↔ b = r.code := by
  unfold roleOf
  split
  next teller => cases r <;> simp [teller, Role.code]
  next other =>
    split
    next supervisor => cases r <;> simp [supervisor, Role.code]
    next neither => cases r <;> simp [other, neither, Role.code]

theorem staffIdOf_eq_some_iff {id : BitVec 24} {n : Nat} :
    staffIdOf id = some n ↔ id.toNat = n ∧ 1 ≤ n ∧ n ≤ 999999 := by
  unfold staffIdOf Config.staffLimit
  split
  next inside => simp only [Option.some.injEq]; omega
  next outside => simp only [reduceCtorEq, false_iff]; omega

/-- A roster entry is stored with the id and the role that it carries (R136). -/
theorem staffOf_eq_some_iff {f : StaffField} {m : Staff} :
    staffOf f = some m ↔ (f.id.toNat = m.id ∧ 1 ≤ m.id ∧ m.id ≤ 999999) ∧ f.role = m.role.code := by
  unfold staffOf
  simp only [Option.bind_eq_bind, Option.bind_eq_some_iff, staffIdOf_eq_some_iff, roleOf_eq_some_iff, Option.some.injEq]
  constructor
  · rintro ⟨id, named, role, code, rfl⟩
    exact ⟨named, code⟩
  · rintro ⟨named, code⟩
    exact ⟨m.id, named, m.role, code, rfl⟩

/-- The roster entry that an entry in range stores (R136). -/
def storedStaff (f : StaffField) : Staff where
  id := f.id.toNat
  role := if f.role = 2#8 then .supervisor else .teller

theorem staffOf_of_good {f : StaffField} (id : 1 ≤ f.id.toNat ∧ f.id.toNat ≤ 999999) (role : f.role = 1#8 ∨ f.role = 2#8) :
    staffOf f = some (storedStaff f) := by
  refine staffOf_eq_some_iff.mpr ⟨⟨rfl, id⟩, ?_⟩
  obtain role | role := role <;> simp [storedStaff, role, Role.code]

/-- What the entries of a ROST are refused BAD_VALUE for (R136). -/
def badRoster (entries : List StaffField) : Prop :=
  16 < entries.length ∨ (∃ e ∈ entries, e.id.toNat = 0 ∨ 999999 < e.id.toNat) ∨
    (∃ e ∈ entries, e.role ≠ 1#8 ∧ e.role ≠ 2#8) ∨ ¬ (entries.map StaffField.id).Nodup

theorem nodup_toNat {l : List (BitVec 24)} : (l.map BitVec.toNat).Nodup ↔ l.Nodup :=
  List.nodup_map_iff fun _ _ => BitVec.eq_of_toNat_eq

theorem rosterOf_of_good {entries : List StaffField} (good : ¬ badRoster entries) :
    rosterOf entries = some (entries.map storedStaff) := by
  simp only [badRoster, not_or, not_exists, not_and, Nat.not_lt, not_not] at good
  obtain ⟨length, ids, roles, distinct⟩ := good
  have read : allSome (entries.map staffOf) = some (entries.map storedStaff) := by
    rw [allSome_eq_some_iff, List.map_map]
    refine List.map_congr_left fun f hf => staffOf_of_good ?_ (or_iff_not_imp_left.mpr (roles f hf))
    have := ids f hf
    omega
  have stored : ((entries.map storedStaff).map fun m => m.id).Nodup := by
    have ids : (entries.map storedStaff).map (fun m => m.id) = (entries.map StaffField.id).map BitVec.toNat := by
      simp [storedStaff]
    rwa [ids, nodup_toNat]
  simp only [rosterOf, if_pos length, read, Option.filter_some, stored, decide_true, if_true]

theorem rosterOf_of_bad {entries : List StaffField} (bad : badRoster entries) : rosterOf entries = none := by
  unfold rosterOf
  split
  next length =>
    obtain long | ⟨f, hf, id⟩ | ⟨f, hf, role⟩ | repeated := bad
    · omega
    · have unread : staffOf f = none := Option.eq_none_iff_forall_ne_some.mpr fun m read => by
        have := (staffOf_eq_some_iff.mp read).1
        omega
      rw [allSome_map_eq_none hf unread]
      rfl
    · have unread : staffOf f = none := Option.eq_none_iff_forall_ne_some.mpr fun m read => by
        have code := (staffOf_eq_some_iff.mp read).2
        cases e : m.role with
        | teller => exact role.1 (code.trans (congrArg Role.code e))
        | supervisor => exact role.2 (code.trans (congrArg Role.code e))
      rw [allSome_map_eq_none hf unread]
      rfl
    · refine Option.eq_none_iff_forall_ne_some.mpr fun roster stored => repeated ?_
      obtain ⟨read, distinct⟩ := Option.filter_eq_some_iff.mp stored
      have ids : roster.map (fun m => m.id) = entries.map fun e => e.id.toNat :=
        map_eq_map_of_read read fun f m e => ((staffOf_eq_some_iff.mp e).1.1).symm
      rw [decide_eq_true_eq, ids] at distinct
      exact nodup_toNat.mp (by rwa [List.map_map])
  next => rfl

/-- The bytes of a stored roster are those carried (R136, R168). -/
theorem bytes_of_rosterOf {entries : List StaffField} (good : ¬ badRoster entries) :
    (entries.map storedStaff).flatMap Staff.bytes = entries.flatMap fun e => be 3 e.id.toNat ++ [e.role] := by
  simp only [badRoster, not_or, not_exists, not_and, not_not] at good
  obtain ⟨-, -, roles, -⟩ := good
  rw [List.flatMap_map]
  refine List.flatMap_congr fun f hf => ?_
  obtain role | role := or_iff_not_imp_left.mpr (roles f hf) <;> simp [Staff.bytes, storedStaff, role, Role.code]

/-! ## POLW -/

theorem code_of_conditions {n : Nat} {c : Condition} (h : conditions[n]? = some c) : c.code.toNat = n + 1 := by
  obtain ⟨bound, e⟩ := List.getElem?_eq_some_iff.mp h
  have codes : ∀ i : Fin 11, (conditions[i.val]'i.isLt).code.toNat = i.val + 1 := by decide
  exact e ▸ codes ⟨n, bound⟩

theorem conditionOf_eq_some_iff {b : Byte} {c : Condition} : conditionOf b = some c ↔ b = c.code := by
  constructor
  · intro read
    unfold conditionOf at read
    split at read
    next => cases read
    next nonzero =>
      have code := code_of_conditions read
      have : b.toNat ≠ 0 := fun zero => nonzero (BitVec.eq_of_toNat_eq zero)
      exact BitVec.eq_of_toNat_eq (by omega)
  · rintro rfl
    cases c <;> rfl

/-- The codes 1 to 11 name a condition (R165). -/
theorem exists_conditionOf {b : Byte} (h : 1 ≤ b.toNat ∧ b.toNat ≤ 11) : ∃ c, conditionOf b = some c := by
  have inside : b.toNat - 1 < conditions.length := Nat.lt_of_lt_of_eq (by omega) (show 11 = conditions.length from rfl)
  refine ⟨conditions[b.toNat - 1], ?_⟩
  rw [conditionOf, if_neg (by rintro rfl; simp at h), List.getElem?_eq_getElem inside]

theorem condition_code_bounds (c : Condition) : 1 ≤ c.code.toNat ∧ c.code.toNat ≤ 11 := by cases c <;> decide

/-- A policy term is stored with the condition and the inversion that it carries (R152). -/
theorem termOf_eq_some_iff {f : TermField} {t : PolicyTerm} :
    termOf f = some t ↔ f.condition = t.condition.code ∧ f.invert = yesNo t.invert := by
  unfold termOf
  simp only [Option.bind_eq_bind, Option.bind_eq_some_iff, conditionOf_eq_some_iff, flagOf_eq_some_iff, Option.some.injEq]
  constructor
  · rintro ⟨condition, code, invert, flag, rfl⟩
    exact ⟨code, flag⟩
  · rintro ⟨code, flag⟩
    exact ⟨t.condition, code, t.invert, flag, rfl⟩

/-- What the terms of a POLW are refused BAD_VALUE for (R152). -/
def badPolicy (terms : List TermField) : Prop :=
  4 < terms.length ∨ (∃ t ∈ terms, t.condition.toNat = 0 ∨ 11 < t.condition.toNat) ∨ ∃ t ∈ terms, 1 < t.invert.toNat

theorem policyOf_of_good {terms : List TermField} (good : ¬ badPolicy terms) : ∃ policy, policyOf terms = some policy := by
  simp only [badPolicy, not_or, not_exists, not_and, Nat.not_lt] at good
  obtain ⟨length, conditions, inverts⟩ := good
  have read : ∀ f ∈ terms, ∃ t, termOf f = some t := fun f hf => by
    obtain ⟨c, code⟩ := exists_conditionOf (b := f.condition) (by have := conditions f hf; omega)
    exact ⟨⟨c, f.invert == 1#8⟩, termOf_eq_some_iff.mpr ⟨conditionOf_eq_some_iff.mp code, eq_yesNo_of_le (inverts f hf)⟩⟩
  have : Nonempty PolicyTerm := ⟨⟨.inside, true⟩⟩
  choose! term termOf_eq using read
  refine ⟨terms.map term, ?_⟩
  rw [policyOf, if_pos length, allSome_eq_some_iff, List.map_map]
  exact List.map_congr_left termOf_eq

theorem policyOf_of_bad {terms : List TermField} (bad : badPolicy terms) : policyOf terms = none := by
  unfold policyOf
  split
  next length =>
    obtain long | ⟨f, hf, condition⟩ | ⟨f, hf, invert⟩ := bad
    · omega
    · refine allSome_map_eq_none hf (Option.eq_none_iff_forall_ne_some.mpr fun t read => ?_)
      have bounds := condition_code_bounds t.condition
      rw [← (termOf_eq_some_iff.mp read).1] at bounds
      omega
    · refine allSome_map_eq_none hf (Option.eq_none_iff_forall_ne_some.mpr fun t read => ?_)
      have bound := yesNo_toNat_le t.invert
      rw [← (termOf_eq_some_iff.mp read).2] at bound
      omega
  next => rfl

/-- A stored policy has the terms that are carried, and their bytes (R152, R168). -/
theorem terms_of_policyOf {terms : List TermField} {policy : List PolicyTerm} (h : policyOf terms = some policy) :
    policy.map (fun x => (x.condition.code, x.invert)) = terms.map (fun t => (t.condition, t.invert == 1#8)) ∧
      policy.length = terms.length ∧
      policy.flatMap PolicyTerm.bytes = terms.flatMap fun t => [t.condition, t.invert] := by
  unfold policyOf at h
  split at h
  next =>
    refine ⟨map_eq_map_of_read h fun f t read => ?_, length_of_allSome h, congrArg List.flatten
      (map_eq_map_of_read h fun f t read => ?_)⟩ <;>
      obtain ⟨code, flag⟩ := termOf_eq_some_iff.mp read
    · cases e : t.invert <;> simp [code, flag, e, yesNo]
    · rw [PolicyTerm.bytes, code, flag]
  next => cases h

/-! ## The requests -/

/-- PCAP is refused for its pocket number, or stores the capacity (R75). -/
theorem exec_pcap {s : State} (idle : branchIdle s) (free : s.ss.saving = none) (pocket capacity : Byte) :
    (pocket.toNat = 0 ∨ 20 < pocket.toNat → exec (.pcap pocket capacity) s = .next (branchReply s .pcap .badValue [])) ∧
    (∀ p : Fin 21, p.val ≠ 0 → pocket.toNat = p.val → ∀ t : State,
      t = s.setPocket p { s.pcc.pockets[p] with capacity := if 24 < capacity.toNat then 24 else capacity.toNat } →
      exec (.pcap pocket capacity) s = .next (branchReply t .pcap .ok
        [pocket, byte (if 24 < capacity.toNat then 24 else capacity.toNat), (t.pcc.classOf p).code])) := by
  simp only [exec, execPcap, writeSetting_free idle free]
  refine ⟨fun out => ?_, fun p nonzero number t written => ?_⟩
  · simp [storagePocketOf_eq_none out, refuse]
  · have stored : storagePocketOf pocket = some p :=
      storagePocketOf_eq_some_iff.mpr ⟨number, fun zero => nonzero (congrArg Fin.val zero)⟩
    have capacity' : t.pcc.pockets[p].capacity = if 24 < capacity.toNat then 24 else capacity.toNat := by
      rw [written, setPocket_capacity]
    simp only [stored, ok, byte_of_toNat number, min_maxCapacity, ← written, capacity']

/-- TOLW is refused for its set number, or stores the six values (R50). -/
theorem exec_tolw {s : State} (idle : branchIdle s) (free : s.ss.saving = none) (number : Byte) (f : TolField) :
    (3 < number.toNat → exec (.tolw number f) s = .next (branchReply s .tolw .badValue [])) ∧
    (∀ n : Fin 4, number.toNat = n.val → exec (.tolw number f) s = .next (branchReply
      { s with wau := { s.wau with tols := s.wau.tols.set n (toleranceOf f) } } .tolw .ok
      (number :: (toleranceOf f).bytes))) := by
  simp only [exec, execTolw, writeSetting_free idle free]
  refine ⟨fun out => ?_, fun n stored => ?_⟩
  · have none : Machine.setOf number = none := dif_neg (by omega)
    simp [none, refuse]
  · simp [setOf_eq_some_iff.mpr stored, ok, byte_of_toNat stored]

/-- ROST is refused outside CLOSED or for its entries, or stores the whole roster (R136). -/
theorem exec_rost {s : State} (idle : branchIdle s) (free : s.ss.saving = none) (entries : List StaffField) :
    (s.rc.session ≠ .closed → exec (.rost entries) s = .next (branchReply s .rost .badState [])) ∧
    (s.rc.session = .closed → badRoster entries → exec (.rost entries) s = .next (branchReply s .rost .badValue [])) ∧
    (s.rc.session = .closed → ¬ badRoster entries → exec (.rost entries) s = .next (branchReply
      { s with rc := { s.rc with roster := entries.map storedStaff } } .rost .ok
      (byte entries.length :: entries.flatMap fun e => be 3 e.id.toNat ++ [e.role]))) := by
  simp only [exec, execRost, writeSetting_free idle free]
  refine ⟨fun session => ?_, fun session bad => ?_, fun session good => ?_⟩
  · simp [session, refuse]
  · simp [session, rosterOf_of_bad bad, refuse]
  · simp only [session, rosterOf_of_good good, ok, bytes_of_rosterOf good, List.length_map]
    rfl

/-- POLW is refused for its terms, or stores the whole policy (R152). -/
theorem exec_polw {s : State} (idle : branchIdle s) (free : s.ss.saving = none) (terms : List TermField) :
    (badPolicy terms → exec (.polw terms) s = .next (branchReply s .polw .badValue [])) ∧
    (¬ badPolicy terms → ∃ policy : List PolicyTerm,
      policy.map (fun x => (x.condition.code, x.invert)) = terms.map (fun t => (t.condition, t.invert == 1#8)) ∧
      exec (.polw terms) s = .next (branchReply { s with rc := { s.rc with policy } } .polw .ok
        (byte terms.length :: terms.flatMap fun t => [t.condition, t.invert]))) := by
  simp only [exec, execPolw, writeSetting_free idle free]
  refine ⟨fun bad => ?_, fun good => ?_⟩
  · simp [policyOf_of_bad bad, refuse]
  · obtain ⟨policy, stored⟩ := policyOf_of_good good
    obtain ⟨carried, length, bytes⟩ := terms_of_policyOf stored
    refine ⟨policy, carried, ?_⟩
    simp only [stored, ok, length, bytes]
    rfl

/-- Settles O20: the operands of each request are read as what is stored, or refused. -/
theorem capacitiesTolerancesRosterAndPolicyAreWritten : Obligations.CapacitiesTolerancesRosterAndPolicyAreWritten := by
  refine ⟨fun pocket capacity s idle free => ?_, fun number f s idle free => ?_, fun s idle free =>
    ⟨fun entries => exec_rost idle free entries, fun terms => exec_polw idle free terms⟩⟩
  · obtain ⟨refused, written⟩ := exec_pcap idle free pocket capacity
    exact ⟨refused, fun p nonzero number => written p nonzero number _ rfl⟩
  · obtain ⟨refused, written⟩ := exec_tolw idle free number f
    exact ⟨refused, fun n stored => by rw [written n stored, toleranceOf_eq]; rfl⟩

end Sys2Proof.SettingsProofs
end

section
/-! PROOF. The arbiter: which request it serves, the way of its move, and what its arrival does (R80, R82 to R85, R144). -/

namespace Sys2Proof.CarouselProofs

open Sys2Proof.Machine Sys2Proof.Safety Sys2Proof.CustodyProofs

/-! ## Moves -/

/-- The plan of a move is the shorter way round (R80). -/
theorem planMove_eq_shorterWay (c t : Fin 21) : planMove c t = shorterWay c t := by
  have distance : (t - c).val = (t.val + 21 - c.val) % 21 := by rw [Fin.val_sub]; omega
  simp only [planMove, shorterWay, distance]

theorem shorterWay_self (c : Fin 21) : shorterWay c c = none := by
  simp [shorterWay]

/-- A move reverses where the last direction is the other one (R85). -/
theorem eq_opposite_iff {last : Option Dir} {dir : Dir} :
    last = some (opposite dir) ↔ last.isSome = true ∧ last ≠ some dir := by
  cases last with
  | none => simp
  | some d => cases d <;> cases dir <;> simp [opposite]

/-- A move of at least one step sets off the shorter way (R80, R82, R85). -/
theorem startMove_eq_setOff {s : State} {c target : Fin 21} {dir : Dir} {n : Nat} {pre : Bool}
    (position : s.pcc.position = some c) (way : shorterWay c target = some (dir, n)) :
    s.startMove target pre = s.setPcc (setOff s.pcc target dir n pre) := by
  have plan : (s.pcc.position.bind fun c => planMove c target) = some (dir, n) := by
    rw [position, Option.bind_some, planMove_eq_shorterWay, way]
  unfold State.startMove setOff
  simp only [plan, eq_opposite_iff, and_assoc]
  split <;> rfl

/-! ## Which request is served -/

theorem canServe_iff {s : State} : s.canServe = true ↔
    (s.pcc.drum = .idle ∧ s.rc.hatch = .locked ∧ s.pins.hatchShut = true) ∧ ∀ q ∈ s.pcc.queue, q.stage ≠ .inService := by
  simp [State.canServe, State.secure, and_assoc]

theorem serve_of_cannot {s : State} (h : s.canServe = false) : s.serve = s := by
  simp [State.serve, h]

theorem waits_iff {src : Source} {r : PosRequest} : waits src r = true ↔ r.source = src ∧ r.stage = .waiting := by
  simp [waits]

theorem markServing_append {src : Source} {before after : List PosRequest} {r : PosRequest}
    (passed : ∀ q ∈ before, waits src q = false) (waiting : waits src r = true) :
    markServing src (before ++ r :: after) = before ++ { r with stage := .serving } :: after := by
  induction before with
  | nil => simp [markServing, waiting]
  | cons q before ih =>
    have first := passed q (by simp)
    have rest := ih fun x hx => passed x (by simp [hx])
    simp [markServing, first, rest]

theorem servedRequest_append {before after : List PosRequest} {r : PosRequest} (others : ∀ q ∈ before, q.stage ≠ .serving)
    (serving : r.stage = .serving) : servedRequest (before ++ r :: after) = some r := by
  have none : before.find? (fun q => q.stage == .serving) = none := by simpa using others
  simp [servedRequest, none, serving]

/-- The oldest waiting request of the intake, or else of the release controller, is next (R84). -/
theorem nextSource_append {before after : List PosRequest} {r : PosRequest} (waiting : r.stage = .waiting)
    (first : r.source = .intake ∨ ∀ q ∈ before ++ r :: after, q.source ≠ .intake) :
    nextSource (before ++ r :: after) = some r.source := by
  have mem : r ∈ before ++ r :: after := by simp
  unfold nextSource
  cases source : r.source with
  | intake => rw [if_pos (List.any_eq_true.mpr ⟨r, mem, waits_iff.mpr ⟨source, waiting⟩⟩)]
  | release =>
    have noIntake : (before ++ r :: after).any (waits .intake) ≠ true := fun h => by
      obtain ⟨q, hq, e⟩ := List.any_eq_true.mp h
      exact (first.resolve_left (by simp [source])) q hq (waits_iff.mp e).1
    rw [if_neg noIntake, if_pos (List.any_eq_true.mpr ⟨r, mem, waits_iff.mpr ⟨source, waiting⟩⟩)]

/-- What serving the next request does: it arrives at once, or its move begins (R84, R85). -/
theorem serve_next {s : State} {before after : List PosRequest} {r : PosRequest} (can : s.canServe = true)
    (queue : s.pcc.queue = before ++ r :: after) (waiting : ∀ q ∈ s.pcc.queue, q.stage = .waiting)
    (passed : ∀ q ∈ before, q.source ≠ r.source)
    (first : r.source = .intake ∨ ∀ q ∈ s.pcc.queue, q.source ≠ .intake) :
    s.serve =
      let t := s.setQueue (before ++ { r with stage := .serving } :: after)
      if s.pcc.position = some r.target then t.arrive else t.startMove r.target false := by
  rw [queue] at waiting first
  have marked : markServing r.source s.pcc.queue = before ++ { r with stage := .serving } :: after :=
    queue ▸ markServing_append (fun q hq => by simp [waits, passed q hq]) (waits_iff.mpr ⟨rfl, waiting r (by simp)⟩)
  have served : servedRequest (before ++ { r with stage := .serving } :: after) = some { r with stage := .serving } :=
    servedRequest_append (fun q hq => by simp [waiting q (by simp [hq])]) rfl
  have next := queue ▸ nextSource_append (waiting r (by simp)) first
  unfold State.serve
  simp only [can, next, marked, State.setQueue_queue, served]
  rfl

/-! ## Arrivals -/

/-- With no request being served an arrival is handed to nobody (R85). -/
theorem arrive_of_none {s : State} (h : ∀ q ∈ s.pcc.queue, q.stage ≠ .serving) : s.arrive = s := by
  have none : servedRequest s.pcc.queue = none := by simpa [servedRequest] using h
  simp [State.arrive, none]

section Arrivals

variable {s : State} {before after : List PosRequest} {r : PosRequest} (queue : s.pcc.queue = before ++ r :: after)
  (serving : r.stage = .serving) (others : ∀ q ∈ before ++ after, q.stage ≠ .serving)

include queue serving others

theorem served_of_append : servedRequest s.pcc.queue = some r :=
  queue ▸ servedRequest_append (fun q hq => others q (by simp [hq])) serving

/-- An intake request that arrives is in service, and the tip begins (R85, R108). -/
theorem arrive_intake (source : r.source = .intake) :
    s.arrive = (s.setQueue (before ++ { r with stage := .inService } :: after)).setIntake
      { s.intake with phase := .tip, tipTimer := some 4000 } := by
  have kept : ∀ l : List PosRequest, (∀ q ∈ l, q.stage ≠ .serving) →
      (l.map fun x => if x.stage = .serving then { x with stage := .inService } else x) = l := fun l h =>
    (List.map_congr_left fun q hq => if_neg (h q hq)).trans (List.map_id' l)
  have arrived : (s.pcc.queue.map fun x => if x.stage = .serving then { x with stage := .inService } else x) =
      before ++ { r with stage := .inService } :: after := by
    rw [queue, List.map_append, List.map_cons, if_pos serving, kept _ fun q hq => others q (by simp [hq]),
      kept _ fun q hq => others q (by simp [hq])]
  unfold State.arrive
  simp only [served_of_append queue serving others, source, arrived]
  rfl

/-- A release request that arrives leaves the queue (R85). -/
theorem filter_serving : (s.pcc.queue.filter fun x => x.stage != .serving) = before ++ after := by
  have kept : ∀ l : List PosRequest, (∀ q ∈ l, q.stage ≠ .serving) → (l.filter fun x => x.stage != .serving) = l := fun l h =>
    List.filter_eq_self.mpr fun q hq => by simpa using h q hq
  rw [queue, List.filter_append, List.filter_cons_of_neg (by simp [serving]), kept _ fun q hq => others q (by simp [hq]),
    kept _ fun q hq => others q (by simp [hq])]

/-- It unlocks the hatch, its pocket the open one (R144). -/
theorem arrive_release (source : r.source = .release) (wanted : r.withdrawn = false) :
    s.arrive = (s.setQueue (before ++ after)).setRc
      { s.rc with hatch := .unlocked, openPocket := some r.pocket, unopenedTimer := some 120000 } := by
  unfold State.arrive
  simp only [served_of_append queue serving others, source, filter_serving queue serving others, wanted]
  rfl

/-- One withdrawn while it was served leaves the queue and does nothing else (R86). -/
theorem arrive_withdrawn (source : r.source = .release) (withdrawn : r.withdrawn = true) :
    s.arrive = s.setQueue (before ++ after) := by
  unfold State.arrive
  simp only [served_of_append queue serving others, source, filter_serving queue serving others, withdrawn]
  rfl

end Arrivals

/-! ## CAROUSEL_SERVE and SETTLE_EXPIRY -/

/-- Nothing to serve, or no leave to serve it (R84). -/
theorem serve_of_nothing {s : State} (h : ¬ (s.pcc.drum = .idle ∧ s.rc.hatch = .locked ∧ s.pins.hatchShut = true) ∨
    s.pcc.queue = [] ∨ ∃ q ∈ s.pcc.queue, q.stage = .inService) : s.serve = s := by
  obtain unready | empty | ⟨q, hq, stage⟩ := h
  · exact serve_of_cannot (Bool.eq_false_iff.mpr fun can => unready (canServe_iff.mp can).1)
  · exact serve_of_empty empty
  · exact serve_of_cannot (Bool.eq_false_iff.mpr fun can => (canServe_iff.mp can).2 q hq stage)

/-- Settles O48: the next request is marked, and its arrival or its move follows. -/
theorem carouselServes : Obligations.CarouselServes := by
  intro s running
  have serves : exec .carouselServe s = .next s.serve := takeEvent_running running _
  refine ⟨fun nothing => by rw [serves, serve_of_nothing nothing],
    fun before r after c ready waiting queue wanted position first => ?_, fun m settle => ?_, fun still => ?_⟩
  · have can : s.canServe = true := canServe_iff.mpr ⟨ready, fun q hq => by simp [waiting q hq]⟩
    have passed : ∀ q ∈ before, q.source ≠ r.source := by
      obtain ⟨source, others⟩ | ⟨rfl, -⟩ := first
      · exact source ▸ others
      · simp
    have next := serve_next can queue waiting passed (first.imp And.left And.right)
    have others : ∀ q ∈ before ++ after, q.stage ≠ .serving := fun q hq => by
      have mem : q ∈ s.pcc.queue := by
        rw [queue]
        simp only [List.mem_append, List.mem_cons] at hq ⊢
        tauto
      simp [waiting q mem]
    rw [serves, next]
    refine ⟨fun dir n way => ?_, fun here source => ?_, fun here source => ?_⟩
    · have away : s.pcc.position ≠ some r.target := fun e => by
        rw [Option.some.inj (position.symm.trans e), shorterWay_self] at way
        cases way
      rw [if_neg away, startMove_eq_setOff (by exact position) way]
      rfl
    · rw [if_pos (here ▸ position), arrive_intake (r := { r with stage := .serving }) rfl rfl others source]
      rfl
    · obtain ⟨rfl, -⟩ : before = [] ∧ _ := first.resolve_left fun h => by simp [source] at h
      rw [if_pos (here ▸ position), arrive_release (r := { r with stage := .serving }) rfl rfl others source wanted]
      rfl
  · simp only [exec, execSettleExpiry, takeEvent_running running, settle]
    rfl
  · simp only [exec, execSettleExpiry, takeEvent_running running]
    split
    next m settle => exact absurd settle (still m)
    all_goals rfl

end Sys2Proof.CarouselProofs
end

section
/-! PROOF. The drum's own events: steps on the path, arrivals, homing steps and carousel faults (R79, R82, R85, R90, R91,
R93). -/

namespace Sys2Proof.CarouselProofs

open Sys2Proof.Machine Sys2Proof.Safety Sys2Proof.CustodyProofs

/-! ## Carousel faults -/

/-- The open pocket ends, and a hatch that has not been opened is locked (R91). -/
def hatchEnded (rc : Release) : Release :=
  { rc with
    openPocket := none
    guardMark := none
    hatch := if rc.hatch = .unlocked then .locked else rc.hatch
    unopenedTimer := if rc.hatch = .unlocked then none else rc.unopenedTimer }

theorem lockUnopened_endOpenPocket (s : State) : s.endOpenPocket.lockUnopened = s.setRc (hatchEnded s.rc) := by
  cases hatch : s.rc.hatch <;>
    simp [State.lockUnopened, State.lockHatch, State.endOpenPocket, State.setRc, hatchEnded, hatch]

theorem positioned_iff {p : Phase} : p.positioned = true ↔ p = .position ∨ p = .tip := by
  cases p <;> simp [Phase.positioned]

/-- A carousel fault, and the chute after it (R91, R96, R97). -/
theorem carouselFault_eq (s : State) : s.carouselFault = (faulted s).afterDrumChange := by
  unfold State.carouselFault faulted
  simp only [lockUnopened_endOpenPocket, raise_eq_raised, State.setPcc_intake, positioned_iff, ← jam_eq_jammedDrop]
  split <;> rfl

/-! ## Steps -/

/-- The pocket at the drop station after one step (R79). -/
theorem stepFrom_eq (k : Fin 21) (d : Dir) : stepFrom d k =
    match d with
    | .forward => Fin.ofNat 21 (k.val + 1)
    | .backward => Fin.ofNat 21 (k.val + 20) := by
  cases d <;> rfl

/-- After an arrival that leaves the station held or the hatch unlocked no other request is served (R84, R85). -/
theorem serve_of_inService {s : State} {q : PosRequest} (hq : q ∈ s.pcc.queue) (stage : q.stage = .inService) :
    s.serve = s := serve_of_nothing (.inr (.inr ⟨q, hq, stage⟩))

theorem serve_of_unlocked {s : State} (hatch : s.rc.hatch = .unlocked) : s.serve = s :=
  serve_of_nothing (.inl fun ready => by simp [hatch] at ready)

section Moving

variable {s : State} {m : Move} {k : Fin 21} {d : Dir}

theorem moveStep_against (against : d ≠ m.dir) : s.moveStep m d = s.carouselFault := if_neg against

theorem moveStep_onPath (position : s.pcc.position = some k) (along : d = m.dir) (short : stepFrom d k ≠ m.target) :
    s.moveStep m d = s.setPcc { s.pcc with position := some (stepFrom d k) } := by
  simp only [State.moveStep, if_pos along, position, if_neg short]

/-- The drum at the target of its move, IDLE with the request not handed over yet (R82). -/
def atTarget (s : State) (m : Move) : State := s.setPcc { s.pcc with drum := .idle, position := some m.target }

theorem moveStep_atTarget (position : s.pcc.position = some k) (along : d = m.dir) (target : stepFrom d k = m.target) :
    s.moveStep m d = (atTarget s m).arrive.serve := by
  simp only [State.moveStep, if_pos along, position, target, if_true]
  rfl

end Moving

/-- A search goes on until its 42nd step (R93). -/
theorem searchStep_forward {s : State} {x : Search} (short : x.steps < 41) : s.searchStep x .forward =
    s.setPcc { s.pcc with drum := .homing (some { x with steps := x.steps + 1 }) } :=
  if_neg (by unfold Config.homingSteps; omega)

theorem searchStep_failed {s : State} {x : Search} (long : 41 ≤ x.steps) : s.searchStep x .forward = s.carouselFault :=
  if_pos (by unfold Config.homingSteps; omega)

section Arrived

variable {s : State} {m : Move} {before after : List PosRequest} {r : PosRequest}
  (queue : s.pcc.queue = before ++ r :: after) (serving : r.stage = .serving)
  (others : ∀ q ∈ before ++ after, q.stage ≠ .serving)

include queue serving others

/-- The intake's arrival: the tip begins, and the station is held (R85, R108). -/
theorem arrived_intake (source : r.source = .intake) : (atTarget s m).arrive.serve =
    ((atTarget s m).setQueue (before ++ { r with stage := .inService } :: after)).setIntake
      { s.intake with phase := .tip, tipTimer := some 4000 } := by
  rw [arrive_intake (by exact queue) serving others source]
  exact serve_of_inService (q := { r with stage := .inService }) (by simp) rfl

/-- A release request's arrival: the hatch is unlocked (R85, R144). -/
theorem arrived_release (source : r.source = .release) (wanted : r.withdrawn = false) : (atTarget s m).arrive.serve =
    ((atTarget s m).setQueue (before ++ after)).setRc
      { s.rc with hatch := .unlocked, openPocket := some r.pocket, unopenedTimer := some 120000 } := by
  rw [arrive_release (by exact queue) serving others source wanted]
  exact serve_of_unlocked rfl

end Arrived

/-! ## The events -/

/-- The state with the sensor of the reference mark no longer reading it (log 9). -/
def unmarked (s : State) : State := { s with pins := { s.pins with refMark := false } }

theorem exec_encoderStep {s : State} (running : s.resetHeld = false) (d : Dir) :
    exec (.encoderStep d) s = .next (match s.pcc.drum with
      | .idle | .settle _ => (unmarked s).carouselFault
      | .moving m _ => (unmarked s).moveStep m d
      | .homing (some x) => (unmarked s).searchStep x d
      | .homing none => if d = .backward then (unmarked s).carouselFault else unmarked s
      | .fault => unmarked s) := by
  simp only [exec, execEncoderStep, takeEvent_running running]
  cases s.pcc.drum with
  | homing x => cases x <;> rfl
  | idle | settle _ | moving _ _ | fault => rfl

/-- The state with the hatch-shut sensor reading open. -/
def forced (s : State) : State := { s with pins := { s.pins with hatchShut := false } }

/-- A hatch that reads open while it is locked (R87, R90). -/
theorem exec_hatchForced {s : State} (running : s.resetHeld = false) (locked : s.rc.hatch = .locked) :
    exec (.hatchShutSensor false) s = .next (match s.pcc.drum with
      | .settle _ | .moving _ _ | .homing (some _) => (forced s).carouselFault
      | .idle | .homing none | .fault => forced s) := by
  have opens : exec (.hatchShutSensor false) s = .next s.hatchOpens := exec_event running rfl rfl
  rw [opens]
  unfold State.hatchOpens
  simp only [State.setPins_rc, locked, State.setPins_pcc]
  cases s.pcc.drum with
  | homing x => cases x <;> rfl
  | idle | settle _ | moving _ _ | fault => rfl

/-- A fault and the chute after it (R91, R96). -/
theorem next_faulted {c : Instr} {s x : State} (h : exec c s = .next x.carouselFault) :
    exec c s = .next (faulted x).afterDrumChange := carouselFault_eq x ▸ h

/-- A step reported in MOVING (R82, R85, R90). -/
theorem exec_encoderStep_moving {s : State} {m : Move} {left : Nat} (running : s.resetHeld = false)
    (moving : s.pcc.drum = .moving m left) (d : Dir) :
    exec (.encoderStep d) s = .next ((unmarked s).moveStep m d) := by
  rw [exec_encoderStep running, moving]

/-- A step reported in a search (R90, R93). -/
theorem exec_encoderStep_searching {s : State} {x : Search} (running : s.resetHeld = false)
    (search : s.pcc.drum = .homing (some x)) (d : Dir) :
    exec (.encoderStep d) s = .next ((unmarked s).searchStep x d) := by
  rw [exec_encoderStep running, search]

/-- Settles O49: each event by the state of the drum in which it comes. -/
theorem stepsMoveTheDrum : Obligations.StepsMoveTheDrum := by
  intro s running
  have steps := exec_encoderStep running
  refine ⟨fun d still => ?_, fun m left k d moving position => ?_, fun x search => ⟨fun short => ?_, fun long => ?_, ?_⟩,
    fun unbegun => ⟨?_, ?_⟩, fun d fault => ?_, fun m left moving => ?_, fun still => ?_, fun locked =>
    ⟨fun turning => ?_, fun quiet => ?_⟩⟩
  · refine next_faulted (x := unmarked s) ((steps d).trans ?_)
    obtain idle | ⟨m, settle⟩ := still
    · rw [idle]
    · rw [settle]
  · have step := exec_encoderStep_moving running moving d
    have here : (unmarked s).pcc.position = some k := position
    refine ⟨fun against => next_faulted (x := unmarked s) (step.trans (by rw [moveStep_against against])),
      fun along short => step.trans ?_, fun along target => ?_⟩
    · rw [moveStep_onPath here along (stepFrom_eq k d ▸ short), stepFrom_eq]
      rfl
    · rw [moveStep_atTarget here along ((stepFrom_eq k d).trans target)] at step
      refine ⟨fun unserved => step.trans ?_, fun before r after queue serving others =>
        ⟨fun source => step.trans ?_, fun source wanted => step.trans ?_, fun source withdrawn => step.trans ?_⟩⟩
      · rw [arrive_of_none (by exact unserved)]
        rfl
      · rw [arrived_intake (by exact queue) serving others source]
        rfl
      · rw [arrived_release (by exact queue) serving others source wanted]
        rfl
      · rw [arrive_withdrawn (by exact queue) serving others source withdrawn]
        rfl
  · refine (exec_encoderStep_searching running search .forward).trans ?_
    rw [searchStep_forward short]
    rfl
  · refine next_faulted (x := unmarked s) ((exec_encoderStep_searching running search .forward).trans ?_)
    rw [searchStep_failed long]
  · exact next_faulted (x := unmarked s) (exec_encoderStep_searching running search .backward)
  · refine (steps .forward).trans ?_
    rw [unbegun]
    rfl
  · refine next_faulted (x := unmarked s) ((steps .backward).trans ?_)
    rw [unbegun]
    rfl
  · refine (steps d).trans ?_
    rw [fault]
    rfl
  · refine next_faulted ?_
    simp only [exec, execArrivalTimerExpiry, takeEvent_running running, moving]
  · simp only [exec, execArrivalTimerExpiry, takeEvent_running running]
    split
    next m left moving => exact absurd moving (still m left)
    all_goals rfl
  · refine next_faulted (x := forced s) ((exec_hatchForced running locked).trans ?_)
    obtain ⟨m, e⟩ | ⟨m, left, e⟩ | ⟨x, e⟩ := turning <;> rw [e]
  · refine (exec_hatchForced running locked).trans ?_
    obtain e | e | e := quiet <;> rw [e] <;> rfl

end Sys2Proof.CarouselProofs
end

section
/-! PROOF. The end of homing, HOME, and what follows a change of the drum: the chute tested again, or a drop taken up (R92, R93,
R96, R117). -/

namespace Sys2Proof.CarouselProofs

open Sys2Proof.Machine Sys2Proof.Safety Sys2Proof.CustodyProofs

/-! ## HOME and the end of a search -/

theorem secure_iff {s : State} : s.secure = true ↔ s.rc.hatch = .locked ∧ s.pins.hatchShut = true := by
  simp [State.secure]

/-- The mark is reported: it ends a search, and is ignored otherwise (R93). -/
theorem exec_referenceMark {s : State} (running : s.resetHeld = false) :
    exec .referenceMark s = .next (match s.pcc.drum with
      | .homing (some _) => (s.setPins { s.pins with refMark := true }).homed
      | .homing none | .idle | .settle _ | .moving _ _ | .fault => s.setPins { s.pins with refMark := true }) := by
  simp only [exec, execReferenceMark, takeEvent_running running]
  cases s.pcc.drum with
  | homing x => cases x <;> rfl
  | idle | settle _ | moving _ _ | fault => rfl

/-- The homing timer ends a search in a fault (R93). -/
theorem exec_homingTimerExpiry {s : State} (running : s.resetHeld = false) :
    exec .homingTimerExpiry s = .next (match s.pcc.drum with
      | .homing (some _) => s.carouselFault
      | .homing none | .idle | .settle _ | .moving _ _ | .fault => s) := by
  simp only [exec, execHomingTimerExpiry]
  exact takeEvent_running running _

/-- What HOME is refused for, and the search that it begins (R92). -/
theorem exec_home {s : State} (idle : branchIdle s) (id : BitVec 24) :
    (s.pcc.drum ≠ .fault → exec (.home id) s = .next (branchReply s .home .badState [])) ∧
    (s.pcc.drum = .fault → s.role id ≠ some .supervisor → exec (.home id) s = .next (branchReply s .home .deny [])) ∧
    (s.pcc.drum = .fault → s.role id = some .supervisor → s.secure = false →
      exec (.home id) s = .next (branchReply s .home .busy [])) ∧
    (s.pcc.drum = .fault → s.role id = some .supervisor → s.secure = true →
      exec (.home id) s = .next (branchReply s.beginSearch .home .ok [])) := by
  simp only [exec, execHome, takeRequest_branch idle]
  refine ⟨fun drum => ?_, fun drum role => ?_, fun drum role insecure => ?_, fun drum role secure => ?_⟩
  · simp [drum, refuse]
  · simp [drum, role, refuse]
  · simp [drum, role, insecure, refuse]
  · simp [drum, role, secure, ok]

/-! ## After the drum has changed -/

/-- The room for the hold of 4 units of pocket 0 (R72, R74). -/
theorem exceptionHold_le_freeUnits (c : Carousel) :
    Config.exceptionHold ≤ c.freeUnits 0 ↔ c.pockets[0].used + c.heldUnits 0 + 4 ≤ c.pockets[0].capacity := by
  simp only [Config.exceptionHold, Carousel.freeUnits, Fin.getElem_fin, Fin.val_zero]
  omega

theorem afterDrumChange_of_takeUp {s : State} (takeUp : s.intake.takeUp = true) : s.afterDrumChange = s.takeUpDrop :=
  if_pos takeUp

theorem afterDrumChange_of_other {s : State} (other : s.intake.takeUp = false) : s.afterDrumChange = s.retest :=
  if_neg (by simp [other])

/-- The state with nothing left to take up. -/
def takenUp (s : State) : State := { s with intake := { s.intake with takeUp := false } }

/-- A drop that is taken up asks for the hold (R74, R117). -/
theorem askHold_takenUp (s : State) : (takenUp s).askHold =
    if s.pcc.pockets[0].used + s.pcc.heldUnits 0 + 4 ≤ s.pcc.pockets[0].capacity then
      { takenUp s with pcc := { s.pcc with hold := some { pocket := 0, units := 4 } } }
    else takenUp s := if_congr (exceptionHold_le_freeUnits s.pcc) rfl rfl

/-- A drop found in the drawer is taken up where the drawer's sensors put it (R117). -/
theorem takeUpDrop_eq (s : State) : s.takeUpDrop =
    if s.pins.drawerShut = false then (takenUp s).askHold.enterLoading
    else if s.pins.bagPresent = true then (takenUp s).askHold.enterIdentify
    else (takenUp s).testChute := if_congr (by simp) rfl rfl

/-- Settles O50: the search ends where the mark is read, and a drop is taken up or the chute tested. -/
theorem homingEnds : Obligations.HomingEnds := by
  refine ⟨fun s running => ⟨fun x search => ⟨?_, ?_⟩, fun other => ⟨?_, ?_⟩, fun id idle => ?_⟩, fun s =>
    ⟨afterDrumChange_of_other, fun takeUp shut => ?_, fun takeUp shut bag => ?_, fun takeUp shut bag => ?_⟩⟩
  · exact (exec_referenceMark running).trans (by rw [search]; rfl)
  · exact next_faulted ((exec_homingTimerExpiry running).trans (by rw [search]))
  · refine (exec_referenceMark running).trans ?_
    split
    next x search => exact absurd search (other x)
    all_goals rfl
  · refine (exec_homingTimerExpiry running).trans ?_
    split
    next x search => exact absurd search (other x)
    all_goals rfl
  · obtain ⟨badState, deny, busy, began⟩ := exec_home idle id
    refine ⟨badState, fun drum role => deny drum ?_, fun drum role insecure => busy drum (role_of_hasRole role) ?_,
      fun drum role secure away => ?_, fun drum role secure mark => ?_⟩
    · obtain absent | teller := role
      · simp [role_of_notRostered absent]
      · simp [role_of_hasRole teller]
    · exact Bool.eq_false_iff.mpr fun secure => insecure (secure_iff.mp secure)
    · refine (began drum (role_of_hasRole role) (secure_iff.mpr secure)).trans ?_
      rw [State.beginSearch, if_neg (by simp [away])]
      rfl
    · refine (began drum (role_of_hasRole role) (secure_iff.mpr secure)).trans ?_
      rw [State.beginSearch, if_pos mark]
      rfl
  · rw [afterDrumChange_of_takeUp takeUp, takeUpDrop_eq, if_pos shut, askHold_takenUp]
    split <;> rfl
  · rw [afterDrumChange_of_takeUp takeUp, takeUpDrop_eq, if_neg (by simp [shut]), if_pos bag, askHold_takenUp]
    split <;> rfl
  · rw [afterDrumChange_of_takeUp takeUp, takeUpDrop_eq, if_neg (by simp [shut]), if_neg (by simp [bag])]
    rfl

end Sys2Proof.CarouselProofs
end

section
/-! PROOF. The position, the hatch, the interlock and the attention output under the operations that the commands share (R81, R84
to R87, R91, R93, R142 to R146, R174). -/

namespace Sys2Proof.CarouselProofs

open Sys2Proof.Machine Sys2Proof.Safety Sys2Proof.CustodyProofs

/-! ## What is kept -/

/-- The attention output is asserted exactly while a set flag is enabled (R174). -/
def attentionFollows (s : State) : Prop := s.ls.attention = attentionOf s.ls.flags s.ls.enables

/-- What the position, the hatch and the interlock are told from. -/
def driveView (s : State) : Drum × Option (Fin 21) × List PosRequest × Hatch × Option Nat × Option (Fin 21) ×
    Option Guard × Bool :=
  (s.pcc.drum, s.pcc.position, s.pcc.queue, s.rc.hatch, s.rc.unopenedTimer, s.rc.openPocket, s.rc.guardMark,
    s.pins.hatchShut)

/-- What the attention output is told from, and whether the module runs. -/
def statusView (s : State) : Vector FlagCell 16 × BitVec 16 × Bool × Bool :=
  (s.ls.flags, s.ls.enables, s.ls.attention, s.resetHeld)

/-- Each of the four stays right on its own, and the module runs on as it did. -/
structure Steady (s t : State) : Prop where
  position : positionRight s → positionRight t
  hatch : hatchRight s → hatchRight t
  interlock : interlockRight s → interlockRight t
  attention : attentionFollows s → attentionFollows t
  held : t.resetHeld = s.resetHeld

theorem Steady.refl (s : State) : Steady s s := ⟨id, id, id, id, rfl⟩

theorem Steady.trans {s t u : State} (h : Steady s t) (h' : Steady t u) : Steady s u :=
  ⟨h'.position ∘ h.position, h'.hatch ∘ h.hatch, h'.interlock ∘ h.interlock, h'.attention ∘ h.attention,
    h'.held.trans h.held⟩

/-- Changes that leave the drum and the hatch as they are. -/
theorem Steady.of_drive {s t : State} (drive : driveView t = driveView s)
    (attention : attentionFollows s → attentionFollows t) (held : t.resetHeld = s.resetHeld) : Steady s t := by
  simp only [driveView, Prod.mk.injEq] at drive
  obtain ⟨drum, position, queue, hatch, timer, pocket, guard, shut⟩ := drive
  refine ⟨?_, ?_, ?_, attention, held⟩
  · unfold positionRight
    rw [drum, position]
    exact id
  · unfold hatchRight
    rw [hatch, timer, pocket, guard]
    exact id
  · unfold interlockRight
    rw [drum, queue, hatch, shut]
    exact id

/-- Changes that leave the flags and the enables as they are too. -/
theorem Steady.same {s t : State} (drive : driveView t = driveView s) (status : statusView t = statusView s) :
    Steady s t := by
  simp only [statusView, Prod.mk.injEq] at status
  obtain ⟨flags, enables, attention, held⟩ := status
  refine .of_drive drive ?_ held
  unfold attentionFollows
  rw [flags, enables, attention]
  exact id

/-! ## Flags -/

theorem steady_raise (s : State) (f : StatusFlag) : Steady s (s.raise f) := .of_drive rfl (fun _ => rfl) rfl

theorem steady_raiseWhen (s : State) (cause : Bool) (f : StatusFlag) : Steady s (s.raiseWhen cause f) := by
  unfold State.raiseWhen
  split
  · exact steady_raise s f
  · exact .refl s

/-- Raised after a change that the drum and the hatch do not see. -/
theorem Steady.raise {s t : State} (h : Steady s t) (f : StatusFlag) : Steady s (t.raise f) := h.trans (steady_raise t f)

theorem Steady.raiseWhen {s t : State} (h : Steady s t) (cause : Bool) (f : StatusFlag) : Steady s (t.raiseWhen cause f) :=
  h.trans (steady_raiseWhen t cause f)

/-! ## Pockets and the chute -/

theorem steady_enterPocket (s : State) (p : Fin 21) (r : Record) : Steady s (s.enterPocket p r) := by
  unfold State.enterPocket
  refine Steady.raiseWhen (Steady.raiseWhen ?_ _ _) _ _
  exact .same rfl rfl

theorem steady_place (s : State) (r : Record) (p : Fin 21) : Steady s (s.place r p) := by
  unfold State.place
  refine Steady.trans (Steady.raiseWhen (Steady.raise ?_ _) _ _) (steady_enterPocket _ p r)
  exact .same rfl rfl

theorem steady_giveBack (s : State) (r : Record) (q : Fin 21) : Steady s (s.giveBack r q) := by
  unfold State.giveBack
  refine Steady.trans (Steady.trans ?_ (steady_enterPocket _ q r)) (.same rfl rfl)
  exact .same rfl rfl

theorem steady_testChute (s : State) : Steady s s.testChute := by
  obtain ⟨-, e⟩ | ⟨-, -, e⟩ | ⟨-, -, e⟩ := testChute_cases s <;> rw [e]
  · exact .same rfl rfl
  · exact .same rfl rfl
  · refine Steady.raiseWhen ?_ _ _
    exact .same rfl rfl

theorem steady_retest (s : State) : Steady s s.retest := by
  obtain e | e := retest_cases s <;> rw [e]
  · exact .refl s
  · exact steady_testChute s

/-- The chute is tested after a change that it alone answers. -/
theorem Steady.retest {s t : State} (h : Steady s t) : Steady s t.retest := h.trans (steady_retest t)

theorem steady_takeUpDrop (s : State) : Steady s s.takeUpDrop := by
  have asked : Steady s (takenUp s).askHold := by
    rw [askHold_takenUp]
    split <;> exact .same rfl rfl
  rw [takeUpDrop_eq]
  split
  · exact asked.trans (.same rfl rfl)
  split
  · exact asked.trans (.same rfl rfl)
  · exact Steady.trans (t := takenUp s) (.same rfl rfl) (steady_testChute _)

theorem steady_afterDrumChange (s : State) : Steady s s.afterDrumChange := by
  unfold State.afterDrumChange
  split
  · exact steady_takeUpDrop s
  · exact steady_retest s

/-! ## The positioning queue -/

/-- No request comes into service. -/
theorem steady_setQueue {s : State} {l : List PosRequest}
    (h : ∀ q ∈ l, q.stage = .inService → ∃ x ∈ s.pcc.queue, x.stage = .inService) : Steady s (s.setQueue l) := by
  refine ⟨id, id, fun ⟨shut, idle⟩ => ⟨shut, fun busy => idle (busy.imp_left ?_)⟩, id, rfl⟩
  rintro ⟨q, hq, stage⟩
  exact h q hq stage

theorem steady_filterQueue (s : State) (keep : PosRequest → Bool) : Steady s (s.setQueue (s.pcc.queue.filter keep)) :=
  steady_setQueue fun q hq stage => ⟨q, List.mem_of_mem_filter hq, stage⟩

theorem stage_of_mem_markServing {src : Source} {l : List PosRequest} {q : PosRequest} (h : q ∈ markServing src l) :
    q.stage = .serving ∨ q ∈ l := by
  induction l with
  | nil => simp [markServing] at h
  | cons r rest ih =>
    unfold markServing at h
    split at h
    · obtain rfl | h := List.mem_cons.mp h
      · exact .inl rfl
      · exact .inr (List.mem_cons_of_mem r h)
    · obtain rfl | h := List.mem_cons.mp h
      · exact .inr (by simp)
      · exact (ih h).imp_right (List.mem_cons_of_mem r)

theorem steady_markServing (s : State) (src : Source) : Steady s (s.setQueue (markServing src s.pcc.queue)) :=
  steady_setQueue fun q hq stage => by
    obtain serving | mem := stage_of_mem_markServing hq
    · cases serving.symm.trans stage
    · exact ⟨q, mem, stage⟩

theorem steady_withdraw (s : State) : Steady s (s.setQueue (withdraw s.pcc.queue)) :=
  steady_setQueue fun q hq stage => by
    obtain ⟨x, hx, rfl⟩ := List.mem_map.mp hq
    refine ⟨x, List.mem_of_mem_filter hx, ?_⟩
    split at stage <;> exact stage

/-! ## Moves and arrivals -/

/-- The drum settles, turns or searches (R81, R93). -/
def turning : Drum → Bool
  | .settle _ | .moving _ _ | .homing (some _) => true
  | .idle | .homing none | .fault => false

theorem interlockRight_iff {s : State} : interlockRight s ↔
    (turning s.pcc.drum = true → s.rc.hatch = .locked ∧ s.pins.hatchShut = true) ∧
      ((∃ q ∈ s.pcc.queue, q.stage = .inService) ∨ s.rc.hatch = .unlocked → s.pcc.drum = .idle) := by
  unfold interlockRight
  cases s.pcc.drum with
  | homing x => cases x <;> simp [turning]
  | idle | settle _ | moving _ _ | fault => simp [turning]

theorem interlockRight_of_idle {s : State} (idle : s.pcc.drum = .idle) : interlockRight s :=
  interlockRight_iff.mpr ⟨fun turns => by simp [idle, turning] at turns, fun _ => idle⟩

/-- The drum stops where it is known to be. -/
theorem steady_stopAt (s : State) (k : Fin 21) (dir : Option Dir) :
    Steady s (s.setPcc { s.pcc with drum := .idle, position := some k, lastDir := dir }) :=
  ⟨fun _ => rfl, id, fun _ => interlockRight_of_idle rfl, id, rfl⟩

/-- A move sets off with the position known, or no step is needed (R80, R85). -/
theorem startMove_cases (s : State) (target : Fin 21) (pre : Bool) : s.startMove target pre = s ∨
    s.pcc.position.isSome = true ∧ ∃ m, s.startMove target pre = s.setPcc { s.pcc with drum := .settle m } ∨
      s.startMove target pre = s.enterMoving m := by
  unfold State.startMove
  split
  next => exact .inl rfl
  next dir steps plan =>
    obtain ⟨c, position, -⟩ := Option.bind_eq_some_iff.mp plan
    refine .inr ⟨by simp [position], ?_⟩
    dsimp only
    split
    · exact ⟨_, .inl rfl⟩
    · exact ⟨_, .inr rfl⟩

/-- A drum that may serve may move: the interlock is SECURE and the station free (R84). -/
theorem steady_startMove {s : State} (can : s.canServe = true) (target : Fin 21) (pre : Bool) :
    Steady s (s.startMove target pre) := by
  obtain ⟨⟨-, locked, shut⟩, free⟩ := canServe_iff.mp can
  have still : ¬ ((∃ q ∈ s.pcc.queue, q.stage = .inService) ∨ s.rc.hatch = .unlocked) := by
    rintro (⟨q, hq, stage⟩ | unlocked)
    · exact free q hq stage
    · cases locked.symm.trans unlocked
  obtain e | ⟨known, m, e | e⟩ := startMove_cases s target pre <;> rw [e]
  · exact .refl s
  · exact ⟨fun _ => known, id, fun _ => ⟨⟨locked, shut⟩, fun busy => absurd busy still⟩, id, rfl⟩
  · exact ⟨fun _ => known, id, fun _ => ⟨⟨locked, shut⟩, fun busy => absurd busy still⟩, id, rfl⟩

/-- The hatch is unlocked at an IDLE drum (R144). -/
theorem steady_unlockHatch {s : State} (idle : s.pcc.drum = .idle) (q : Fin 21) : Steady s (s.unlockHatch q) := by
  refine ⟨id, fun _ => ⟨?_, ?_, ?_⟩, fun _ => interlockRight_of_idle idle, id, rfl⟩ <;>
    simp [State.unlockHatch]

/-- An arrival at an IDLE drum (R85). -/
theorem steady_arrive {s : State} (idle : s.pcc.drum = .idle) : Steady s s.arrive := by
  unfold State.arrive
  split
  next => exact .refl s
  next r _ =>
    cases r.source with
    | intake => exact ⟨id, id, fun _ => interlockRight_of_idle idle, id, rfl⟩
    | release =>
      have gone := steady_filterQueue s fun x => x.stage != .serving
      dsimp only
      split
      · exact gone
      · exact gone.trans (steady_unlockHatch (by exact idle) r.pocket)

theorem steady_serve (s : State) : Steady s s.serve := by
  unfold State.serve
  split
  next can =>
    split
    next => exact .refl s
    next src _ =>
      have marked := steady_markServing s src
      obtain ⟨ready, free⟩ := canServe_iff.mp can
      have canStill : (s.setQueue (markServing src s.pcc.queue)).canServe = true :=
        canServe_iff.mpr ⟨ready, fun q hq => by
          obtain serving | mem := stage_of_mem_markServing hq
          · simp [serving]
          · exact free q mem⟩
      dsimp only
      split
      next => exact marked
      next =>
        split
        · exact marked.trans (steady_arrive (by exact ready.1))
        · exact marked.trans (steady_startMove canStill _ _)
  next => exact .refl s

/-- The arbiter serves on after a change. -/
theorem Steady.serve {s t : State} (h : Steady s t) : Steady s t.serve := h.trans (steady_serve t)

theorem steady_cutPreMove (s : State) : Steady s s.cutPreMove := by
  unfold State.cutPreMove
  split
  next =>
    split
    next m settle =>
      split
      · refine ⟨fun known => ?_, id, fun _ => interlockRight_of_idle rfl, id, rfl⟩
        simpa [positionRight, settle] using known
      · exact .refl s
    next m left moving =>
      split
      next k position =>
        split
        · refine ⟨fun _ => ?_, id, fun ⟨shut, still⟩ => ⟨?_, fun busy => ?_⟩, id, rfl⟩
          · simp [positionRight, position]
          · simpa [moving] using shut
          · cases moving.symm.trans (still busy)
        · exact .refl s
      next => exact .refl s
    all_goals exact .refl s
  next => exact .refl s

/-- A request enters the queue waiting (R83). -/
theorem steady_enqueue {s : State} {r : PosRequest} (waiting : r.stage = .waiting) : Steady s (s.enqueue r) := by
  refine (Steady.trans (steady_setQueue fun q hq stage => ?_) (steady_cutPreMove _)).serve
  obtain mem | mem := List.mem_append.mp hq
  · exact ⟨q, mem, stage⟩
  · obtain rfl := List.mem_singleton.mp mem
    cases waiting.symm.trans stage

theorem steady_arriveAt (s : State) (k : Fin 21) : Steady s (s.arriveAt k) :=
  ((steady_stopAt s k s.pcc.lastDir).trans (steady_arrive rfl)).serve

theorem steady_prePositionOrServe (s : State) : Steady s s.prePositionOrServe := by
  unfold State.prePositionOrServe
  split
  next may =>
    simp only [Bool.and_eq_true, List.isEmpty_iff, beq_iff_eq] at may
    obtain ⟨⟨⟨-, empty⟩, secure⟩, idle⟩ := may
    have can : s.canServe = true := canServe_iff.mpr ⟨⟨idle, secure_iff.mp secure⟩, by simp [empty]⟩
    split
    · exact steady_startMove can _ _
    · exact .refl s
  next => exact steady_serve s

/-! ## Jams, faults and homing -/

theorem steady_jam (s : State) : Steady s s.jam := by
  unfold State.jam
  refine Steady.raise (Steady.trans (t := s.setQueue (s.pcc.queue.filter fun r => r.source != .intake))
    (steady_filterQueue s _) ?_) .jam
  exact .same rfl rfl

theorem steady_enterJammed (s : State) : Steady s s.enterJammed := (steady_jam s).serve

/-- After a fault the drum is in FAULT with nothing to serve, and the hatch is not UNLOCKED (R91). -/
theorem driveView_faulted (s : State) : driveView (faulted s) = (.fault, none, [], (hatchEnded s.rc).hatch,
    (hatchEnded s.rc).unopenedTimer, none, none, s.pins.hatchShut) := by
  unfold faulted
  dsimp only
  split <;> rfl

/-- A carousel fault leaves the interlock right whatever it was, and the rest if it was right (R91). -/
theorem faulted_right (s : State) : positionRight (faulted s) ∧ (hatchRight s → hatchRight (faulted s)) ∧
    interlockRight (faulted s) := by
  have drive := driveView_faulted s
  simp only [driveView, Prod.mk.injEq] at drive
  obtain ⟨drum, position, queue, hatch, timer, pocket, guard, -⟩ := drive
  refine ⟨?_, fun ⟨runs, _, _⟩ => ?_, ?_⟩
  · simp [positionRight, drum, position]
  · simp only [hatchRight, hatch, timer, pocket, guard, hatchEnded]
    cases e : s.rc.hatch <;> simp [runs, e]
  · simp only [interlockRight, drum, queue, hatch, hatchEnded]
    cases s.rc.hatch <;> simp

theorem interlockRight_carouselFault (s : State) : interlockRight s.carouselFault :=
  carouselFault_eq s ▸ (steady_afterDrumChange _).interlock (faulted_right s).2.2

theorem steady_carouselFault (s : State) : Steady s s.carouselFault := by
  obtain ⟨position, hatch, interlock⟩ := faulted_right s
  rw [carouselFault_eq]
  refine Steady.trans ⟨fun _ => position, hatch, fun _ => interlock, fun _ => rfl, ?_⟩ (steady_afterDrumChange _)
  unfold faulted
  dsimp only
  split <;> rfl

theorem steady_homed (s : State) : Steady s s.homed :=
  ((steady_stopAt s 0 (some .forward)).trans (steady_afterDrumChange _)).serve

/-- A search begins with the position lost and the interlock SECURE (R92, R93). -/
theorem steady_beginSearch {s : State} (lost : s.pcc.drum = .fault ∨ s.pcc.drum = .homing none)
    (secure : s.rc.hatch = .locked ∧ s.pins.hatchShut = true) : Steady s s.beginSearch := by
  unfold State.beginSearch
  split
  · exact steady_homed s
  · refine ⟨fun unknown => ?_, id, fun ⟨_, still⟩ => ⟨secure, fun busy => ?_⟩, id, rfl⟩
    · obtain e | e := lost <;> simpa [positionRight, e] using unknown
    · obtain e | e := lost <;> cases e.symm.trans (still busy)

theorem steady_interlockSecured {s : State} (secure : s.rc.hatch = .locked ∧ s.pins.hatchShut = true) :
    Steady s s.interlockSecured := by
  unfold State.interlockSecured
  cases drum : s.pcc.drum with
  | homing x => cases x with
    | none => exact steady_beginSearch (.inr drum) secure
    | some _ => exact steady_serve s
  | idle | settle _ | moving _ _ | fault => exact steady_serve s

/-! ## The hatch and the session -/

theorem steady_endOpenPocket (s : State) : Steady s s.endOpenPocket :=
  ⟨id, fun ⟨runs, _, _⟩ => ⟨runs, nofun, nofun⟩, id, id, rfl⟩

/-- A hatch that is locked no longer holds the drum (R84, R145). -/
theorem steady_lockHatch (s : State) : Steady s s.lockHatch := by
  refine ⟨id, fun _ => ⟨?_, nofun, nofun⟩, fun right => interlockRight_iff.mpr ?_, id, rfl⟩
  · simp [State.lockHatch]
  · obtain ⟨shut, still⟩ := interlockRight_iff.mp right
    exact ⟨fun turns => ⟨rfl, (shut turns).2⟩, fun busy => still (.inl (busy.resolve_right nofun))⟩

theorem steady_lockUnopened (s : State) : Steady s s.lockUnopened := by
  unfold State.lockUnopened
  split
  · exact steady_lockHatch s
  · exact .refl s

theorem steady_leaveOpen (s : State) : Steady s s.leaveOpen := by
  have closed : Steady s (s.setRc { s.rc with session := .closed }) := .same rfl rfl
  exact ((closed.trans (steady_withdraw _)).trans ((steady_endOpenPocket _).trans (steady_lockUnopened _))).serve

theorem steady_closeSession (s : State) : Steady s s.closeSession := by
  unfold State.closeSession
  split
  · exact .refl s
  · exact .same rfl rfl
  · exact steady_leaveOpen s

theorem Steady.afterPermit {s t : State} (h : Steady s t) : Steady s (s.afterPermit t) := by
  unfold State.afterPermit
  split
  · exact h.trans (steady_closeSession t)
  · exact h

/-- The hatch-shut sensor reads open: an unlocked hatch is opened, and a locked one is a fault of a drum that turns (R87, R90,
R144). -/
theorem steady_hatchOpens (s : State) : Steady s s.hatchOpens := by
  have unforced : turning s.pcc.drum = false ∨ s.rc.hatch ≠ .locked → Steady s (forced s) := fun h =>
    ⟨id, id, fun right => interlockRight_iff.mpr
      ⟨fun turns => by
        obtain ⟨locked, -⟩ := (interlockRight_iff.mp right).1 turns
        exact absurd locked (h.resolve_left (Bool.ne_false_iff.mpr turns)), right.2⟩, id, rfl⟩
  have fault : Steady s (forced s).carouselFault :=
    let kept := steady_carouselFault (forced s)
    ⟨kept.position, kept.hatch, fun _ => interlockRight_carouselFault _, kept.attention, kept.held⟩
  unfold State.hatchOpens
  simp only [State.setPins_rc, State.setPins_pcc]
  split
  next unlocked =>
    refine ⟨id, fun ⟨_, _, guard⟩ => ⟨?_, ?_, guard⟩, fun right => interlockRight_of_idle (right.2 (.inr unlocked)), id, rfl⟩
    · simp
    · simp
  next opened => exact unforced (.inr (by simp [opened]))
  next locked =>
    cases drum : s.pcc.drum with
    | settle _ | moving _ _ => exact fault
    | idle | fault => exact unforced (.inl (by simp [drum, turning]))
    | homing x => cases x with
      | some _ => exact fault
      | none => exact unforced (.inl (by simp [drum, turning]))

/-- The hatch-shut sensor reads shut: an opened hatch is locked (R87, R145). -/
theorem steady_hatchShuts (s : State) : Steady s s.hatchShuts := by
  have shut : Steady s (s.setPins { s.pins with hatchShut := true }) :=
    ⟨id, id, fun right => interlockRight_iff.mpr
      ⟨fun turns => ⟨((interlockRight_iff.mp right).1 turns).1, rfl⟩, right.2⟩, id, rfl⟩
  unfold State.hatchShuts
  dsimp only
  split
  · exact shut
  · exact (shut.trans (steady_lockHatch _)).trans (steady_interlockSecured ⟨rfl, rfl⟩)
  next locked => exact shut.trans (steady_interlockSecured ⟨locked, rfl⟩)

end Sys2Proof.CarouselProofs
end

section
/-! PROOF. The position, the hatch, the interlock and the attention output under the route, the tip, the requests and the events
(R81 to R93, R100 to R117, R137 to R150, R162, R174). -/

namespace Sys2Proof.CarouselProofs

open Sys2Proof.Machine Sys2Proof.Safety Sys2Proof.CustodyProofs

/-! ## The route and the jobs -/

theorem steady_offerIntake (s : State) (p : Fin 21) : Steady s (s.offerIntake p) := by
  unfold State.offerIntake
  split
  · exact steady_enterJammed s
  · exact steady_enqueue rfl

theorem steady_decideRoute (s : State) : Steady s s.decideRoute := by
  unfold State.decideRoute
  split
  next => exact .refl s
  next => exact Steady.trans (.same (by simp [driveView]) (by simp [statusView])) (steady_offerIntake _ _)

theorem steady_takeRoute (s : State) : Steady s s.takeRoute := by
  unfold State.takeRoute
  split
  · exact steady_decideRoute s
  · exact .refl s

theorem steady_workOn (s : State) : Steady s s.workOn :=
  Steady.trans (.same (by simp [driveView]) (by simp [statusView])) (steady_takeRoute s.startWau)

theorem steady_jobCompletion (s : State) : Steady s s.finishHead.workOn :=
  Steady.trans (.same (by simp [driveView]) (by simp [statusView])) (steady_workOn s.finishHead)

theorem steady_takeValue (s : State) (v : Int) (unsteady : Bool) : Steady s (s.takeValue v unsteady) := by
  unfold State.takeValue State.enterRoute
  refine Steady.trans ?_ (steady_takeRoute _)
  exact .same rfl rfl

/-! ## The tip, jams and identification -/

theorem steady_completeTip (s : State) (r : Record) (p : Fin 21) : Steady s (s.completeTip r p) := by
  have remember : ∀ u : State, Steady u (u.setPcc (u.pcc.rememberIntake p r.range)) := fun u => by
    unfold Carousel.rememberIntake
    split
    · exact .refl u
    · exact .same rfl rfl
  have placed : Steady s ((s.setHold none).place r p) :=
    Steady.trans (t := s.setHold none) (.same rfl rfl) (steady_place _ r p)
  unfold State.completeTip
  generalize (s.setHold none).place r p = u at placed
  have freed : Steady u u.freeStation := steady_filterQueue u _
  dsimp only
  refine ((placed.trans freed).trans (remember u.freeStation)).trans
    (Steady.trans ?_ ((steady_prePositionOrServe _).trans (steady_testChute _)))
  exact .same rfl rfl

theorem steady_settleJam (s : State) (r : Record) (d : Disposition) : Steady s (s.settleJam r d) := by
  cases d with
  | pocket p =>
    exact Steady.trans (t := s.update r.receipt fun x => { x with jammed := false }) (.same rfl rfl) (steady_place _ r p)
  | removed => exact .same rfl rfl

theorem steady_leaveJammed (s : State) : Steady s s.leaveJammed :=
  Steady.trans (t := s.clearReadings) (.same rfl rfl) (steady_testChute _)

theorem steady_openRecord {s t : State} (h : s.openRecord = some t) : Steady s t := by
  obtain ⟨_, _, _, -, -, rfl⟩ | ⟨_, _, _, rfl⟩ := openRecord_cases h <;> exact .same rfl rfl

theorem steady_afterWindow (s : State) : Steady s s.afterWindow := by
  have ended : Steady s (s.setIntake { s.intake with tagWindow := .none }) := .same rfl rfl
  unfold State.afterWindow
  dsimp only
  split
  · exact ended.trans (.same rfl rfl)
  · exact ended.trans (steady_enterJammed _)

/-! ## Staging and scans -/

theorem steady_light (s : State) (l : Lamp) : Steady s (s.light l) := .same rfl rfl

theorem Steady.afterStaging {s t : State} (h : Steady s t) (q : Fin 21) : Steady s (t.afterStaging q) := by
  unfold State.afterStaging
  split
  · exact h.retest
  · exact h

theorem steady_stage (s : State) (r : Record) (q : Fin 21) : Steady s (s.stage r q) :=
  .same (by simp [driveView]) (by simp [statusView])

theorem steady_restartIdle (s : State) : Steady s s.restartIdle := .same (by simp [driveView]) (by simp [statusView])

theorem steady_scanClaimant (s : State) (t : Tag) (q : Fin 21) : Steady s (s.scanClaimant t q) := by
  unfold State.scanClaimant
  split
  next => exact steady_light s .refuse
  next r _ =>
    cases r.state with
    | staged | overdue =>
      dsimp only
      split
      · exact (steady_giveBack s r q).trans (steady_light _ _)
      · exact steady_light s .refuse
    | held => exact (steady_raise s _).trans (steady_light _ _)
    | grace | advised | missing | intake => exact steady_light s .refuse

/-- The repeat guard is set at a staging, with the pocket open (R146). -/
theorem steady_scan {s : State} {q : Fin 21} (opened : s.rc.openPocket = some q) (t : Tag) (atMs : Nat) :
    Steady s (s.scan t atMs q) := by
  have guards : ∀ u : State, u.rc.openPocket.isSome = true →
      Steady u (u.setRc { u.rc with guardMark := some { tag := t, atMs } }) := fun u pocket =>
    ⟨id, fun ⟨runs, locks, _⟩ => ⟨runs, locks, fun _ => pocket⟩, id, id, rfl⟩
  unfold State.scan
  split
  · exact steady_light s .accept
  split
  next r _ =>
    exact (((steady_stage s r q).trans (guards _ (by simp [opened]))).trans (steady_light _ _)).afterStaging q
  next => exact steady_scanClaimant s t q

theorem steady_hatchRead (s : State) (x : TagRead) (atMs : Nat) : Steady s (s.hatchRead x atMs) := by
  unfold State.hatchRead
  split
  next => exact .refl s
  next =>
    split
    next =>
      split
      · exact steady_light s .refuse
      · exact .refl s
    next q opened =>
      split
      · exact (steady_restartIdle s).trans (steady_scan (by simpa using opened) _ _)
      · exact steady_restartIdle s

/-! ## Steps of the drum -/

theorem steady_moveStep {s : State} {m : Move} {left : Nat} (moving : s.pcc.drum = .moving m left) (dir : Dir) :
    Steady s (s.moveStep m dir) := by
  unfold State.moveStep
  split
  · split
    next => exact .refl s
    next k position =>
      split
      · exact steady_arriveAt s _
      · exact ⟨fun _ => by simp [positionRight, moving], id, id, id, rfl⟩
  · exact steady_carouselFault s

theorem steady_searchStep {s : State} {x : Search} (search : s.pcc.drum = .homing (some x)) (dir : Dir) :
    Steady s (s.searchStep x dir) := by
  unfold State.searchStep
  split
  · exact steady_carouselFault s
  · split
    · exact steady_carouselFault s
    · refine ⟨?_, id, fun right => interlockRight_iff.mpr ?_, id, rfl⟩
      · simp [positionRight, search]
      · obtain ⟨shut, still⟩ := interlockRight_iff.mp right
        exact ⟨fun _ => shut (by simp [search, turning]), fun busy => by cases search.symm.trans (still busy)⟩

/-- The settle interval ends, and the first step begins (R85). -/
theorem steady_enterMoving {s : State} {m : Move} (settle : s.pcc.drum = .settle m) : Steady s (s.enterMoving m) := by
  refine ⟨?_, id, fun right => interlockRight_iff.mpr ?_, id, rfl⟩
  · simp [positionRight, settle, State.enterMoving]
  · obtain ⟨shut, still⟩ := interlockRight_iff.mp right
    exact ⟨fun _ => shut (by simp [settle, turning]), fun busy => by cases settle.symm.trans (still busy)⟩

/-! ## Requests -/

section Requests

variable {s t : State} {l : Line} {name : BitVec 32} {owner : State → State × Answer}

theorem steady_answer (s : State) (l : Line) (name : BitVec 32) (a : Answer) : Steady s (s.answer l name a) :=
  .same (by simp [driveView]) (by simp [statusView])

theorem steady_takeRequest (h : takeRequest s l name owner = .next t) (ho : Steady s (owner s).1) : Steady s t := by
  rw [takeRequest_eq] at h
  obtain rfl := Host.Outcome.next.inj h
  split
  · exact ho.trans (steady_answer ..)
  · exact .refl s

theorem steady_writeSetting (h : writeSetting s name owner = .next t) (ho : Steady s (owner s).1) : Steady s t := by
  refine steady_takeRequest h ?_
  split
  · exact .refl s
  · exact ho

theorem steady_takePanel (h : takePanel s name owner = .next t) (ho : Steady s.restartIdle (owner s.restartIdle).1) :
    Steady s t := steady_takeRequest h ((steady_restartIdle s).trans ho)

theorem steady_takeEvent {f : State → State} (h : takeEvent s f = .next t) (hf : Steady s (f s)) : Steady s t := by
  rw [takeEvent_eq] at h
  obtain rfl := Host.Outcome.next.inj h
  split
  · exact .refl s
  · exact hf

end Requests

theorem steady_advise (s : State) (tag : Tag) (a : Advice) : Steady s (s.advise tag a).1 := by
  have attached : ∀ (r : Record) (mark : AdviceMark), Steady s (s.attach r a mark) := fun r mark =>
    .same (by simp [driveView]) (by simp [statusView])
  unfold State.advise
  split
  next =>
    split
    · exact .same rfl rfl
    · exact .refl s
  next r _ =>
    cases r.state with
    | advised | missing => exact .same rfl rfl
    | intake | staged | overdue => exact .refl s
    | grace =>
      dsimp only
      split
      · exact attached r .inGrace
      · exact .refl s
    | held =>
      dsimp only
      split
      · exact .refl s
      split
      · exact (attached r .late).raise _
      · exact .refl s

theorem steady_remove (s : State) (n : Nat) : Steady s (s.remove n) := .same rfl rfl

theorem steady_withdrawAdvice (s : State) (tag : Tag) (wanted : RecState) : Steady s (s.withdrawAdvice tag wanted).1 := by
  unfold State.withdrawAdvice
  split
  · exact .refl s
  split
  · exact .refl s
  split
  · exact .refl s
  split
  · exact .refl s
  · exact (steady_remove s _).retest

theorem steady_confirm (s : State) (n counted : Nat) (ids : List (BitVec 24)) : Steady s (s.confirm n counted ids).1 := by
  unfold State.confirm
  split
  · exact .refl s
  split
  · exact .refl s
  split
  · exact .refl s
  split
  · exact .refl s
  split
  · exact .refl s
  · exact (steady_remove s n).retest

theorem steady_credential (s : State) (id : BitVec 24) : Steady s (s.credential id).1 := by
  unfold State.credential
  (repeat' split) <;> exact .same rfl rfl

theorem steady_wipe (s : State) : Steady s s.wipe :=
  .same (by simp [driveView, State.wipe]) (by simp [statusView, State.wipe])

/-- Every request of the catalogue (R168). -/
theorem steady_runRequest {i : Instr} {s t : State} (h : runRequest i s = .next t) : Steady s t := by
  cases i
  all_goals dsimp only [runRequest] at h
  case advs =>
    refine steady_takeRequest h ?_
    split
    · exact .refl s
    · exact steady_advise ..
  case wdrw | retr => exact steady_takeRequest h (steady_withdrawAdvice _ _ _)
  case cnfm => exact steady_takeRequest h (steady_confirm _ _ _ _)
  case nopn =>
    refine steady_takeRequest h ?_
    split
    · exact .refl s
    · exact Steady.retest (t := { s with cr := { s.cr with night := .night, totals := {} } }) (.same rfl rfl)
  case ncls =>
    refine steady_takeRequest h ?_
    split
    · exact .refl s
    · exact Steady.retest (t := { s with cr := { s.cr with night := .day, records := s.cr.records.map Record.atClose } })
        (.same rfl rfl)
  case wipe =>
    refine steady_takeRequest h ?_
    split
    · exact .refl s
    · exact (steady_wipe s).retest
  case ackl =>
    refine steady_takeRequest h ?_
    split
    · exact .refl s
    split
    · exact .refl s
    · exact Steady.retest (t := { s with cr := { s.cr with lossPending := false } }) (.same rfl rfl)
  case jamc =>
    refine steady_takeRequest h ?_
    split
    · exact .refl s
    split
    · exact .refl s
    split
    · exact .refl s
    split
    · exact .refl s
    split
    · exact .refl s
    · exact (steady_settleJam s _ _).trans (steady_leaveJammed _)
  case home =>
    refine steady_takeRequest h ?_
    split
    next => exact .refl s
    next fault =>
      split
      next => exact .refl s
      next =>
        split
        next => exact .refl s
        next secure => exact steady_beginSearch (.inl (not_not.mp fault)) (secure_iff.mp (by simpa using secure))
  case wndw =>
    refine steady_takeRequest h ?_
    split
    · exact .refl s
    · refine Steady.afterPermit ?_
      exact .same rfl rfl
  case rnga | genr =>
    refine steady_writeSetting h (Steady.retest ?_)
    exact .same rfl rfl
  case prtv =>
    refine steady_takePanel h ?_
    split
    · exact .refl _
    split
    · exact .refl _
    split
    · exact .refl _
    split
    · exact .refl _
    · exact steady_enqueue rfl
  case pcls =>
    refine steady_takePanel h ?_
    split
    · exact .refl _
    · exact steady_closeSession _
  case cred => exact steady_takePanel h (steady_credential ..)
  case notg =>
    refine steady_takePanel h ?_
    split
    · exact .refl _
    split
    · exact .refl _
    split
    · exact .refl _
    split
    · exact .refl _
    · exact ((steady_stage _ _ _).trans (steady_light _ _)).afterStaging _
  case clrs =>
    refine steady_takeRequest h ?_
    split
    · split
      · exact .refl s
      · exact .of_drive rfl (fun _ => rfl) rfl
    · exact .refl s
  case timw =>
    refine steady_writeSetting h ?_
    split
    · exact .refl s
    · exact .of_drive rfl (fun _ => rfl) rfl
  case read | ftag | lcus | lsta | lpkt | pkts | ntot | stat | timwRead | time =>
    exact steady_takeRequest h
      (.same (by (repeat' split) <;> simp [driveView, ok, refuse]) (by (repeat' split) <;> simp [statusView, ok, refuse]))
  case pcap | rngw | denw | tolw | rost | polw | save =>
    exact steady_writeSetting h
      (.same (by (repeat' split) <;> simp [driveView, ok, refuse]) (by (repeat' split) <;> simp [statusView, ok, refuse]))
  -- no other command is a request: it has no effect here
  all_goals exact Host.Outcome.next.inj h ▸ .refl _

end Sys2Proof.CarouselProofs
end

section
/-! PROOF. The position, the hatch, the interlock and the attention output under every event and at a restart, and from all of it:
every step keeps the four right (R81, R84 to R87, R144 to R146, R174, R183). -/

namespace Sys2Proof.CarouselProofs

open Sys2Proof.Machine Sys2Proof.Safety Sys2Proof.CustodyProofs

/-! ## Events -/

theorem steady_setPins {s : State} {x : Levels} (h : x.hatchShut = s.pins.hatchShut) : Steady s (s.setPins x) :=
  .same (by simp [driveView, h]) rfl

theorem steady_completeSave (s : State) (answers : Bool) (differs : List (Nat × Byte)) :
    Steady s (s.completeSave answers differs) := by
  unfold State.completeSave
  split
  next => exact .refl s
  next =>
    dsimp only
    split
    all_goals
      refine Steady.raise ?_ _
      exact .same rfl rfl

theorem steady_expireGrace (s : State) (n : Nat) : Steady s (s.expireGrace n) := by
  unfold State.expireGrace
  split
  · refine Steady.raise ?_ _
    exact .same rfl rfl
  · exact .refl s

theorem steady_expireHandover (s : State) (n : Nat) : Steady s (s.expireHandover n) := by
  unfold State.expireHandover
  split
  · refine Steady.raise ?_ _
    exact .same rfl rfl
  · exact .refl s

theorem steady_encoderStep {s t : State} {dir : Dir} (h : execEncoderStep dir s = .next t) : Steady s t := by
  refine steady_takeEvent h (Steady.trans (t := unmarked s) (.same rfl rfl) ?_)
  dsimp only
  split
  next => exact steady_carouselFault _
  next => exact steady_carouselFault _
  next moving => exact steady_moveStep (s := unmarked s) moving dir
  next search => exact steady_searchStep (s := unmarked s) search dir
  next =>
    split
    · exact steady_carouselFault _
    · exact .refl _
  next => exact .refl _

theorem steady_tagWindowExpiry {s t : State} (h : execTagWindowExpiry s = .next t) : Steady s t := by
  obtain rfl | h := whenRunning_next h
  · exact .refl t
  split at h
  next =>
    split at h
    next => cases h
    next u opened => exact Host.Outcome.next.inj h ▸ (steady_openRecord opened).trans (steady_afterWindow u)
  next => exact Host.Outcome.next.inj h ▸ .refl s

theorem steady_setReceiver (s : State) (l : Line) (x : Receiver) : Steady s (s.setReceiver l x) :=
  .same (by simp [driveView]) (by simp [statusView])

/-- Every command but RESET_HOLD and RESTART. -/
theorem steady_exec {c : Instr} {s t : State} (notHold : c ≠ .resetHold) (notRestart : ∀ a b x y n, c ≠ .restart a b x y n)
    (h : exec c s = .next t) : Steady s t := by
  cases request : c.encode.isSome with
  | true => exact steady_runRequest (exec_eq_runRequest request s ▸ h)
  | false =>
    have answered : ∀ u l name a, Steady s u → Steady s (u.answer l name a) := fun u l name a kept =>
      kept.trans (steady_answer u l name a)
    have received : ∀ u l x, Steady s u → Steady s (u.setReceiver l x) := fun u l x kept =>
      kept.trans (steady_setReceiver u l x)
    have taken : ∀ i u v, Steady s u → runRequest i u = .next v → Steady s v := fun i u v kept h =>
      kept.trans (steady_runRequest h)
    cases c
    case resetHold => exact absurd rfl notHold
    case restart => exact (notRestart _ _ _ _ _ rfl).elim
    case frameRejected => exact frameRejected_keeps answered received taken (.refl s) h
    case lineByteReceived => exact lineByteReceived_keeps answered received taken (.refl s) h
    case encoderStep => exact steady_encoderStep h
    case tagWindowExpiry => exact steady_tagWindowExpiry h
    all_goals dsimp only [exec] at h
    case saveCompletion => exact steady_takeEvent h (steady_completeSave ..)
    case graceExpiry => exact steady_takeEvent h (steady_expireGrace ..)
    case handoverExpiry => exact steady_takeEvent h (steady_expireHandover ..)
    case drawerOpened =>
      refine steady_takeEvent h (Steady.trans (t := s.setPins { s.pins with drawerShut := false }) (steady_setPins rfl) ?_)
      dsimp only
      split
      · exact .same rfl rfl
      · exact .refl _
    case drawerShut bagPresent beams =>
      refine steady_takeEvent h (Steady.trans
        (t := s.setPins { s.pins with drawerShut := true, bagPresent, beams }) (steady_setPins rfl) ?_)
      dsimp only
      split
      · split
        · exact .same rfl rfl
        · refine Steady.trans ?_ (steady_testChute _)
          exact .same rfl rfl
      · exact .refl _
    case drawerTimerExpiry =>
      refine steady_takeEvent h ?_
      split
      · refine Steady.raise ?_ _
        exact .same rfl rfl
      · exact .refl s
    case tagReadComplete reader read =>
      refine steady_takeEvent h (Steady.raiseWhen ?_ _ _)
      cases reader <;> exact .same rfl rfl
    case scaleReading =>
      refine steady_takeEvent h ?_
      split
      · split
        · exact steady_takeValue ..
        · exact .same rfl rfl
      · exact .refl s
    case weighTimerExpiry =>
      refine steady_takeEvent h ?_
      split
      · exact steady_takeValue ..
      · exact .refl s
    case routeDecision => exact steady_takeEvent h (steady_takeRoute s)
    case jobStart => exact steady_takeEvent h (steady_workOn s)
    case jobCompletion =>
      refine steady_takeEvent h ?_
      split
      · exact steady_jobCompletion s
      · exact .refl s
    case carouselServe => exact steady_takeEvent h (steady_serve s)
    case settleExpiry =>
      refine steady_takeEvent h ?_
      split
      next settle => exact steady_enterMoving settle
      all_goals exact .refl s
    case arrivalTimerExpiry | homingTimerExpiry =>
      refine steady_takeEvent h ?_
      split
      · exact steady_carouselFault s
      all_goals exact .refl s
    case referenceMark =>
      refine steady_takeEvent h (Steady.trans (t := s.setPins { s.pins with refMark := true }) (steady_setPins rfl) ?_)
      dsimp only
      split
      · exact steady_homed _
      all_goals exact .refl _
    case hatchShutSensor =>
      refine steady_takeEvent h ?_
      split
      · exact steady_hatchShuts s
      · exact steady_hatchOpens s
    case unopenedTimerExpiry =>
      refine steady_takeEvent h ?_
      split
      · exact (steady_lockUnopened s).serve
      · exact .refl s
    case tipCompletion =>
      refine steady_takeEvent h ?_
      split
      · exact steady_completeTip ..
      · exact .refl s
    case tipTimerExpiry =>
      refine steady_takeEvent h ?_
      split
      · exact steady_enterJammed s
      · exact .refl s
    case hatchScan atMs =>
      refine steady_takeEvent h ?_
      split
      next => exact .refl s
      next x _ =>
        exact Steady.trans (t := s.setRc { s.rc with reader := { s.rc.reader with holding := .none } }) (.same rfl rfl)
          (steady_hatchRead _ x atMs)
    case idleExpiry =>
      refine steady_takeEvent h ?_
      split
      · exact steady_leaveOpen s
      all_goals exact .refl s
    case timeLockContact closed =>
      exact steady_takeEvent h (Steady.afterPermit (t := s.setPins { s.pins with timeLockClosed := closed }) (steady_setPins rfl))
    case frameGap | replyEnd | drawerReadTaken | lampExpiry | pairingExpiry | clockTick =>
      exact steady_takeEvent h
        (.same (by (repeat' split) <;> simp [driveView]) (by (repeat' split) <;> simp [statusView]))
    -- every other command is a request
    all_goals simp [Instr.encode] at request

/-! ## Restart -/

/-- What the first part of start-up leaves of the drum, the hatch and the flags (R144, R171, R183). -/
theorem restartRestored_view (s : State) (straps : Straps) (pins : Levels) (n : Nat) (answers lost : Bool) :
    driveView (restartRestored s straps pins n answers lost) =
        (.homing none, none, [], .locked, none, none, none, pins.hatchShut) ∧
      attentionFollows (restartRestored s straps pins n answers lost) := by
  cases lost <;> exact ⟨rfl, rfl⟩

theorem steady_secondPart {s : State} (locked : s.rc.hatch = .locked) : Steady s s.secondPart := by
  unfold State.secondPart
  split
  next shut => exact steady_interlockSecured ⟨locked, shut⟩
  next => exact .refl s

theorem steady_startUpFlags (s : State) : Steady s s.startUpFlags :=
  ((steady_raiseWhen s _ _).raiseWhen _ _).raiseWhen _ _

/-- The jobs, the flags and the sequencer's first phase (R61, R116, R171). -/
theorem steady_restartStarted (s : State) : Steady s (restartStarted s) := by
  obtain ⟨pcc, rc, -, ls, -, pins, held⟩ := refill_frame s
  have refilled : Steady s s.refill :=
    .same (by simp [driveView, pcc, rc, pins]) (by simp [statusView, ls, held])
  exact (refilled.trans (steady_startUpFlags s.refill)).trans (.same rfl rfl)

/-- A restart sets all four right, whatever they were (R183). -/
theorem restart_right {straps : Straps} {pins : Levels} {lost answers : Bool} {n : Nat} {s t : State}
    (h : exec (.restart straps pins lost answers n) s = .next t) :
    positionRight t ∧ hatchRight t ∧ interlockRight t ∧ attentionFollows t ∧ t.resetHeld = false := by
  rw [exec_restart] at h
  obtain rfl := Host.Outcome.next.inj h
  obtain ⟨drive, attention⟩ := restartRestored_view s straps pins n answers (lost || !s.cr.storeValid)
  have cold := coldStart_restartRestored s straps pins n answers (lost || !s.cr.storeValid)
  generalize restartRestored s straps pins n answers (lost || !s.cr.storeValid) = u at *
  obtain ⟨-, rc, -⟩ := restartStarted_frame u
  have kept := (steady_restartStarted u).trans (steady_secondPart (by rw [rc, cold.hatch]))
  simp only [driveView, Prod.mk.injEq] at drive
  obtain ⟨drum, position, queue, hatch, timer, pocket, guard, -⟩ := drive
  refine ⟨kept.position ?_, kept.hatch ?_, kept.interlock ?_, kept.attention attention, kept.held.trans cold.running⟩
  · simp [positionRight, drum, position]
  · simp [hatchRight, hatch, timer, pocket, guard]
  · simp [interlockRight, drum, queue, hatch]

/-! ## Every command -/

/-- While RESET_N is held the attention output is released, and otherwise it follows the flags (R174, R183). -/
theorem attentionRight_iff {s : State} :
    attentionRight s ↔ if s.resetHeld = true then s.ls.attention = false else attentionFollows s := by
  unfold attentionRight attentionFollows attentionOf
  cases s.resetHeld <;> simp

theorem Steady.attentionRight {s t : State} (h : Steady s t) (running : s.resetHeld = false) (right : attentionRight s) :
    attentionRight t := by
  rw [attentionRight_iff, if_neg (by simp [running])] at right
  rw [attentionRight_iff, if_neg (by simp [h.held, running])]
  exact h.attention right

theorem exec_keeps_four {c : Instr} {s t : State} (h : exec c s = .next t) :
    (positionRight s → positionRight t) ∧ (hatchRight s → hatchRight t) ∧ (interlockRight s → interlockRight t) ∧
      (attentionRight s → attentionRight t) := by
  by_cases hold : c = .resetHold
  · subst hold
    obtain rfl := Host.Outcome.next.inj h
    exact ⟨id, id, id, fun _ => rfl⟩
  by_cases restart : ∃ a b x y n, c = .restart a b x y n
  · obtain ⟨_, _, _, _, _, rfl⟩ := restart
    obtain ⟨position, hatch, interlock, attention, running⟩ := restart_right h
    refine ⟨fun _ => position, fun _ => hatch, fun _ => interlock, fun _ => attentionRight_iff.mpr ?_⟩
    rwa [if_neg (by simp [running])]
  · have notRestart : ∀ a b x y n, c ≠ .restart a b x y n := fun a b x y n e => restart ⟨a, b, x, y, n, e⟩
    have kept := steady_exec hold notRestart h
    refine ⟨kept.position, kept.hatch, kept.interlock, fun right => ?_⟩
    cases running : s.resetHeld with
    | false => exact kept.attentionRight running right
    | true =>
      obtain rfl := Host.Outcome.next.inj ((exec_held running hold notRestart).symm.trans h)
      exact right

/-- What every command keeps and the queue of commands has no part in, every step keeps. -/
theorem step_keeps {P : State → Prop} (pending : ∀ s rest, P s → P (s.withPending rest))
    (kept : ∀ c s t, exec c s = .next t → P s → P t) (s t : State) (right : P s) (h : step s = .next t) : P t := by
  obtain rfl | ⟨c, rest, h⟩ := step_cases h
  · exact right
  · exact kept c _ t h (pending s rest right)

/-- Settles O59: every command but RESET_HOLD and RESTART is steady, and a restart sets all four right. -/
theorem stepKeepsThePositionTheHatchAndTheAttention : Obligations.StepKeepsThePositionTheHatchAndTheAttention := by
  refine ⟨step_keeps (fun _ _ => id) fun c s t h => ?_, step_keeps (fun _ _ => id) fun c s t h => ?_,
    step_keeps (fun _ _ => id) fun c s t h => ?_, step_keeps (fun _ _ => id) fun c s t h => ?_⟩ <;>
    obtain ⟨position, hatch, interlock, attention⟩ := exec_keeps_four h
  · exact position
  · exact hatch
  · exact interlock
  · exact attention

end Sys2Proof.CarouselProofs
end

section
/-! PROOF. The chute, the drawer, the tag readers and the scale (R95 to R102, R104, R105). -/

namespace Sys2Proof.DropProofs

open Sys2Proof.Machine Sys2Proof.Safety Sys2Proof.CustodyProofs

/-! ## The test of the chute -/

theorem testChute_of_day {s : State} (day : s.cr.night = .day) :
    s.testChute = (s.setHold none).setIntake { s.intake with phase := .closed } := if_pos day

theorem testChute_of_ready {s : State} (night : s.cr.night = .night) (ready : s.chuteConditions = true) :
    s.testChute = (s.setHold (some ⟨0, 4⟩)).setIntake { s.intake with phase := .ready } :=
  (if_neg (by simp [night])).trans (if_pos ready)

theorem testChute_of_unready {s : State} (night : s.cr.night = .night) (unready : ¬ s.chuteConditions = true) :
    s.testChute = ((s.setHold none).setIntake { s.intake with phase := .shut }).raiseWhen
      (s.intake.phase != .shut) .chuteShut :=
  (if_neg (by simp [night])).trans (if_neg unready)

/-- The chute is tested again outside a drop and a jam (R96, R97). -/
theorem retest_of_still {s : State}
    (still : s.intake.phase = .closed ∨ s.intake.phase = .shut ∨ s.intake.phase = .ready) : s.retest = s.testChute := by
  unfold State.retest
  obtain phase | phase | phase := still <;> rw [phase]

/-- In a drop and in JAMMED the chute is left as it is (R98). -/
theorem retest_of_drop {s : State}
    (drop : ¬ (s.intake.phase = .closed ∨ s.intake.phase = .shut ∨ s.intake.phase = .ready)) : s.retest = s := by
  simp only [not_or] at drop
  obtain ⟨closed, shut, ready⟩ := drop
  unfold State.retest
  split
  · exact absurd ‹_› closed
  · exact absurd ‹_› shut
  · exact absurd ‹_› ready
  all_goals rfl

/-- Settles O12: the three results of the test, and the phases in which it is made again. -/
theorem chuteTest : Obligations.ChuteTest := by
  intro s
  refine ⟨fun day => testChute_of_day day,
    fun night ready => testChute_of_ready night ((chuteConditions_iff s).mpr ready),
    fun night unready shut => ?_, fun night unready entered => ?_, retest_of_still, retest_of_drop⟩
  · rw [testChute_of_unready night ((chuteConditions_iff s).not.mpr unready), shut]
    rfl
  · rw [testChute_of_unready night ((chuteConditions_iff s).not.mpr unready), bne_iff_ne.mpr entered]
    rfl

/-! ## The drawer -/

/-- The state once the drawer reads open (R99). -/
def drawerOpen (s : State) : State := s.setPins { s.pins with drawerShut := false }

theorem exec_drawerOpened {s : State} (running : s.resetHeld = false) : exec .drawerOpened s =
    .next (if s.intake.phase = .ready then (drawerOpen s).enterLoading else drawerOpen s) :=
  exec_event running rfl (by rfl)

/-- The state once the drawer reads shut, with the other sensors of the drawer as reported (R99). -/
def drawerClosed (s : State) (bag : Bool) (beams : BitVec 4) : State :=
  s.setPins { s.pins with drawerShut := true, bagPresent := bag, beams }

theorem exec_drawerShut {s : State} (running : s.resetHeld = false) (bag : Bool) (beams : BitVec 4) :
    exec (.drawerShut bag beams) s = .next (
      if s.intake.phase = .loading then
        if bag then (drawerClosed s bag beams).enterIdentify
        else ((drawerClosed s bag beams).setIntake { s.intake with drawerTimer := none }).testChute
      else drawerClosed s bag beams) :=
  exec_event running rfl (by rfl)

theorem exec_drawerTimerExpiry {s : State} (running : s.resetHeld = false) : exec .drawerTimerExpiry s =
    .next (if s.intake.phase = .loading ∧ s.intake.drawerTimer.isSome = true then
      (s.setIntake { s.intake with drawerTimer := none }).raise .drawerHeld else s) :=
  exec_event running rfl (by rfl)

/-- Settles O38: each report of the drawer by the phase in which it comes. -/
theorem drawerOpensAndShuts : Obligations.DrawerOpensAndShuts := by
  intro s running
  refine ⟨fun ready => ?_, fun other => ?_, fun bag beams other => ?_, fun beams loading => ?_, fun beams loading => ?_,
    fun loading timer => ?_, fun silent => ?_⟩
  · rw [exec_drawerOpened running, if_pos ready]
    rfl
  · rw [exec_drawerOpened running, if_neg other]
    rfl
  · rw [exec_drawerShut running, if_neg other]
    rfl
  · rw [exec_drawerShut running, if_pos loading, if_pos rfl]
    rfl
  · rw [exec_drawerShut running, if_pos loading, if_neg Bool.false_ne_true]
    rfl
  · rw [exec_drawerTimerExpiry running, if_pos ⟨loading, timer⟩]
    rfl
  · rw [exec_drawerTimerExpiry running, if_neg]
    rintro ⟨loading, timer⟩
    obtain other | stopped := silent
    · exact other loading
    · simp [stopped] at timer

/-! ## The tag readers -/

theorem exec_tagReadComplete {s : State} (running : s.resetHeld = false) (reader : ReaderId) (read : TagRead) :
    exec (.tagReadComplete reader read) s = .next (
      (s.setReader reader ((s.reader reader).complete read)).raiseWhen (s.reader reader).holding.isSome .readerOverrun) :=
  exec_event running rfl (by rfl)

/-- A read goes into an empty holding slot (R101). -/
theorem exec_tagReadComplete_of_empty {s : State} (running : s.resetHeld = false) {reader : ReaderId}
    (empty : (s.reader reader).holding = none) (read : TagRead) :
    exec (.tagReadComplete reader read) s = .next (s.setReader reader { receive := none, holding := some read }) := by
  rw [exec_tagReadComplete running, ReaderSlots.complete, empty]
  rfl

/-- A read is lost while the one before it waits (R101). -/
theorem exec_tagReadComplete_of_full {s : State} (running : s.resetHeld = false) {reader : ReaderId} {waiting : TagRead}
    (full : (s.reader reader).holding = some waiting) (read : TagRead) :
    exec (.tagReadComplete reader read) s =
      .next (raised (s.setReader reader { receive := none, holding := some waiting }) .readerOverrun) := by
  rw [exec_tagReadComplete running, ReaderSlots.complete, full]
  rfl

/-- The state once the waiting read has been taken, with the readings that result (R102). -/
def readTaken (s : State) (x : Readings) : State :=
  s.setIntake { s.intake with reader := { s.intake.reader with holding := none }, readings := x }

theorem exec_drawerReadTaken_of_none {s : State} (running : s.resetHeld = false) (h : s.intake.reader.holding = none) :
    exec .drawerReadTaken s = .next s := by
  simp only [exec, execDrawerReadTaken, takeEvent_running running, h]

theorem exec_drawerReadTaken_of_some {s : State} (running : s.resetHeld = false) {read : TagRead}
    (h : s.intake.reader.holding = some read) : exec .drawerReadTaken s = .next (readTaken s
      (if s.intake.phase = .identify then s.intake.readings.takeRead read else s.intake.readings)) := by
  simp only [exec, execDrawerReadTaken, takeEvent_running running, h, readTaken]

/-- A bad read, and one of a number that is no tag, has no effect (R102). -/
theorem takeRead_of_noTag (x : Readings) {read : TagRead}
    (h : read = .bad ∨ read = .good 0#32 ∨ read = .good 0xFFFFFFFF#32) : x.takeRead read = x := by
  obtain rfl | rfl | rfl := h <;> rfl

/-- A read of a tag by the first tag read before it (R102). -/
theorem takeRead_good (x : Readings) {t : Tag} (low : t ≠ 0#32) (high : t ≠ 0xFFFFFFFF#32) :
    x.takeRead (.good t) = match x.firstTag with
      | none => { x with firstTag := some t }
      | some u => if t = u then x else { x with secondTag := true } := by
  have tag : isTag t = true := by simp [low, high]
  simp only [Readings.takeRead, tag]
  rfl

/-- Settles O39: a completed read by the holding slot, a taken one by the phase and the tag read before it. -/
theorem readersHoldOneRead : Obligations.ReadersHoldOneRead := by
  intro s running
  refine ⟨fun read empty => ?_, fun read y full => ?_, fun read empty => ?_, fun read y full => ?_,
    exec_drawerReadTaken_of_none running, fun read held idle => ?_, fun t held phase low high => ?_⟩
  · exact exec_tagReadComplete_of_empty (reader := .drawer) running empty read
  · exact exec_tagReadComplete_of_full (reader := .drawer) running full read
  · exact exec_tagReadComplete_of_empty (reader := .hatch) running empty read
  · exact exec_tagReadComplete_of_full (reader := .hatch) running full read
  · rw [exec_drawerReadTaken_of_some running held]
    obtain other | noTag := idle
    · rw [if_neg other]
      rfl
    · rw [takeRead_of_noTag _ noTag, ite_self]
      rfl
  · rw [exec_drawerReadTaken_of_some running held, if_pos phase, takeRead_good _ low high]
    refine ⟨fun first => ?_, fun same => ?_, fun u first other => ?_⟩
    · rw [first]
      rfl
    · simp only [same, if_true]
      rfl
    · simp only [first, if_neg other.symm]
      rfl

/-! ## The scale -/

/-- The drop in ROUTE with its value taken, before the route decision (R104, R105). -/
def valueTaken (s : State) (v : Int) (unsteady : Bool) : State :=
  { s with
    cr := { s.cr with records := s.cr.records.map fun r =>
      if r.state = .intake then { r with mass := some (clampReading v), overRange := overRangeOf v, unsteady } else r }
    intake := { s.intake with
      phase := .route, weighTimer := none
      readings := { s.intake.readings with mass := some (clampReading v), overRange := overRangeOf v, unsteady } } }

/-- The value is held to 0 and to full scale (R104). -/
theorem clampReading_eq (v : Int) : clampReading v = if v < 0 then 0 else if 200000 < v then 200000 else v.toNat := by
  unfold clampReading Config.fullScale
  split
  · omega
  · split <;> omega

theorem weighing_iff {s : State} :
    s.weighing = true ↔ s.intake.phase = .weigh ∧ s.intake.weighTimer.isSome = true := by
  simp [State.weighing]

theorem exec_scaleReading {s : State} (running : s.resetHeld = false) (v : Int) (steady : Bool) :
    exec (.scaleReading v steady) s = .next (
      if s.weighing then
        if steady then (valueTaken s v false).takeRoute
        else s.setIntake { s.intake with readings := { s.intake.readings with lastReading := some v } }
      else s) :=
  exec_event running rfl (by rfl)

theorem exec_weighTimerExpiry {s : State} (running : s.resetHeld = false) {v : Int}
    (last : s.intake.readings.lastReading.getD 0 = v) :
    exec .weighTimerExpiry s = .next (if s.weighing then (valueTaken s v true).takeRoute else s) :=
  exec_event running rfl (by rw [← last]; rfl)

/-- Settles O41: a reading by whether it is steady, the timer by the last reading, and neither outside WEIGH. -/
theorem scaleValueIsTaken : Obligations.ScaleValueIsTaken := by
  intro s running
  simp only [← clampReading_eq, ← weighing_iff]
  refine ⟨fun v weighing => ?_, fun v weighing => ?_, fun v weighing last => ?_, fun weighing last => ?_,
    fun v steady other => ?_, fun other => ?_⟩
  · rw [exec_scaleReading running, if_pos weighing]
    rfl
  · rw [exec_scaleReading running, if_pos weighing]
    rfl
  · rw [exec_weighTimerExpiry (v := v) running (by simp [last]), if_pos weighing]
    rfl
  · rw [exec_weighTimerExpiry (v := 0) running (by simp [last]), if_pos weighing]
    rfl
  · rw [exec_scaleReading running, if_neg other]
  · rw [exec_weighTimerExpiry running rfl, if_neg other]

end Sys2Proof.DropProofs
end

section
/-! PROOF. The route decision: the route written, the job queued, and the positioning request offered, or the drop jammed in
FAULT (R42, R53, R74, R106, R107). -/

namespace Sys2Proof.DropProofs

open Sys2Proof.Machine Sys2Proof.Safety Sys2Proof.CustodyProofs Sys2Proof.QueueProofs

/-- The route decision waits for a free place in the job queue (R52, R106). -/
theorem takeRoute_of_full {s : State} (full : 6 ≤ s.wau.queue.length) : s.takeRoute = s := by
  refine if_neg fun h => ?_
  have free : 1 ≤ 6 - s.wau.queue.length := h.2
  omega

theorem takeRoute_of_free {s : State} (route : s.intake.phase = .route) (free : s.wau.queue.length ≤ 5) :
    s.takeRoute = s.decideRoute :=
  if_pos ⟨route, show 1 ≤ 6 - s.wau.queue.length by omega⟩

/-- The drop in POSITION with its route written, its hold moved and its job at the tail of the queue (R42, R53, R74,
R106). -/
def routeDecided (s : State) (r : Record) : State :=
  { s with
    cr := { s.cr with records := changed s r fun x => { x.routed (s.route r) with verdict := some .pending } }
    pcc := { s.pcc with hold := some { pocket := (s.route r).pocket, units := r.size.getD 0 } }
    intake := { s.intake with
      phase := .position, readings := { s.intake.readings with chosen := some (s.route r).pocket } }
    wau := { s.wau with queue := s.wau.queue ++ [{ receipt := r.receipt, tag := r.tag }] } }

theorem queueJob_positioned (s : State) (r : Record) :
    (positioned s r).queueJob r.receipt r.tag = (routeDecided s r).startWau := by
  have written := updateReceipt_updateReceipt (l := s.cr.records) (n := r.receipt)
    (g := fun x => { x with verdict := some .pending }) fun x : Record =>
      show (x.routed (s.route r)).receipt = x.receipt from rfl
  unfold State.queueJob
  refine congrArg State.startWau ?_
  unfold routeDecided changed
  rw [← updateReceipt, ← written]
  rfl

theorem exec_routeDecision_of_free {s : State} {r : Record} (running : s.resetHeld = false)
    (route : s.intake.phase = .route) (free : s.wau.queue.length ≤ 5) (record : inIntake s r) :
    exec .routeDecision s = .next ((routeDecided s r).startWau.offerIntake (s.route r).pocket) :=
  exec_event running rfl (by
    rw [takeRoute_of_free route free, decideRoute_eq (intakeRecord_of_inIntake record), queueJob_positioned])

/-- In FAULT the request is refused, and the arbiter has nothing to serve (R84, R107, R110). -/
theorem offerIntake_of_fault {s : State} (fault : s.pcc.drum = .fault) (p : Fin 21) : s.offerIntake p = jammedDrop s := by
  have drum : (jammedDrop s).pcc.drum = .fault := fault
  unfold State.offerIntake State.enterJammed
  rw [if_pos fault, jam_eq_jammedDrop, CarouselProofs.serve_of_nothing (.inl fun ready => by simp [drum] at ready)]

theorem offerIntake_of_sound {s : State} (sound : s.pcc.drum ≠ .fault) (p : Fin 21) :
    s.offerIntake p = s.enqueue { source := .intake, target := p, pocket := p } := if_neg sound

/-- Settles O43: the decision waits outside ROUTE and without a free place, and otherwise is one event. -/
theorem routeDecisionIsOneEvent : Obligations.RouteDecisionIsOneEvent := by
  intro s running
  refine ⟨fun waits => ?_, fun r route free record => ⟨fun fault => ?_, fun sound => ?_⟩⟩
  · refine exec_event running rfl ?_
    obtain other | full := waits
    · exact WeighingProofs.takeRoute_of_phase other
    · exact takeRoute_of_full full
  · rw [exec_routeDecision_of_free running route free record, offerIntake_of_fault (by rw [State.startWau_pcc]; exact fault)]
    rfl
  · rw [exec_routeDecision_of_free running route free record, offerIntake_of_sound (by rw [State.startWau_pcc]; exact sound)]
    rfl

end Sys2Proof.DropProofs
end

section
/-! PROOF. A record completed into its pocket, by a tip or by JAMC (R7, R8, R20, R76). -/

namespace Sys2Proof.DropProofs

open Sys2Proof.Machine Sys2Proof.Safety Sys2Proof.CustodyProofs

/-- The flags of a pocket's class, as `enterPocket` raises them (R76). -/
theorem flagged_eq_raiseWhen (s : State) (p : Fin 21) : flagged s p =
    (s.raiseWhen (s.pcc.classOf p == .last) .pocketLast).raiseWhen (s.pcc.classOf p == .full) .pocketFull := by
  unfold flagged
  cases s.pcc.classOf p <;> rfl

theorem enterPocket_eq_flagged (s : State) (p : Fin 21) (r : Record) : s.enterPocket p r =
    flagged { s with pcc := { s.pcc with pockets := s.pcc.pockets.set p (entered s r p) } } p := by
  rw [flagged_eq_raiseWhen]
  rfl

/-- The test of R7 for the grace interval. -/
theorem toGrace_iff {r : Record} {g : Nat} :
    r.toGrace g = true ↔ r.claims = true ∧ r.mark = .none ∧ 0 < g := by
  simp [Record.toGrace, and_assoc]

theorem placed_eq (r : Record) (p : Fin 21) (g : Nat) (clock : Option Nat) : r.placed p g clock =
    { r with location := .pocket p
             state := if r.claims = true ∧ r.mark = .none ∧ 0 < g then .grace else .held
             grace := if r.claims = true ∧ r.mark = .none ∧ 0 < g then some g else none
             dropTime := clock } := by
  simp only [Record.placed, toGrace_iff]

/-- The placement is the completion of R7, where the test of R7 reads of the record placed what it reads of the one named. -/
theorem place_eq_completed {s : State} {r : Record} (p : Fin 21)
    (same : ∀ x ∈ s.cr.records, x.receipt = r.receipt → x.claims = r.claims ∧ x.mark = r.mark) :
    s.place r p = completed s r p := by
  have records : (updateReceipt s.cr.records r.receipt fun x => x.placed p s.cr.graceInterval s.ls.clock) =
      changed s r fun x => { x with
        location := .pocket p
        state := if r.claims = true ∧ r.mark = .none ∧ 0 < s.cr.graceInterval then .grace else .held
        grace := if r.claims = true ∧ r.mark = .none ∧ 0 < s.cr.graceInterval then some s.cr.graceInterval else none
        dropTime := s.ls.clock } := by
    refine List.map_congr_left fun x hx => ?_
    split
    next e =>
      obtain ⟨claims, mark⟩ := same x hx e
      exact (placed_eq ..).trans (by simp only [← claims, ← mark])
    next => rfl
  unfold State.place completed State.update
  dsimp only
  rw [enterPocket_eq_flagged, records]
  by_cases zero : p = 0
  · subst zero
    rfl
  · rw [beq_eq_false_iff_ne.mpr zero, if_neg zero]
    simp only [NightTotals.count, if_neg zero]
    rfl

/-- The one record of its receipt is placed as R7 has it. -/
theorem place_of_holds {s : State} {r : Record} (h : holds s r) (p : Fin 21) : s.place r p = completed s r p :=
  place_eq_completed p fun x hx e => by simp [h.2 x hx e]

end Sys2Proof.DropProofs
end

section
/-! PROOF. The end of a drop at the tip: the bag completed into its pocket, the station freed, and the drum pre-positioned
(R76, R85, R88, R108, R109). -/

namespace Sys2Proof.DropProofs

open Sys2Proof.Machine Sys2Proof.Safety Sys2Proof.CustodyProofs Sys2Proof.CarouselProofs

/-! ## The pre-position target -/

theorem preTarget_of_none {s : State} (last : s.pcc.lastIntake = none) : s.preTarget = none := by
  simp only [State.preTarget, last]

/-- The last intake pocket itself, while it is OPEN (R88). -/
theorem preTarget_of_opened {s : State} {q : Fin 21} {range : Option RangeRef} (last : s.pcc.lastIntake = some (q, range))
    (opened : s.pcc.classOf q = .opened) : s.preTarget = some q := by
  simp only [State.preTarget, last, if_pos opened]

/-- Otherwise the first OPEN pocket after it in its range's group (R88). -/
theorem preTarget_of_closed {s : State} {q : Fin 21} {range : Option RangeRef} (last : s.pcc.lastIntake = some (q, range))
    (closed : s.pcc.classOf q ≠ .opened) :
    s.preTarget = (((s.groupOfRange range).dropWhile (· ≠ q)).drop 1).find? fun x => s.pcc.classOf x == .opened := by
  simp only [State.preTarget, last, if_neg closed]

/-- A list from its first q on. -/
theorem dropWhile_ne_append {q : Fin 21} {front rest : List (Fin 21)} (first : q ∉ front) :
    (front ++ q :: rest).dropWhile (· ≠ q) = q :: rest := by
  have passed : ∀ x ∈ front, decide (x ≠ q) = true := fun x hx => decide_eq_true fun e => first (e ▸ hx)
  rw [List.dropWhile_append_of_pos passed]
  exact List.dropWhile_cons_of_neg (by simp)

/-- The pockets after the last intake pocket in its group decide (R88). -/
theorem preTarget_of_group {s : State} {q : Fin 21} {range : Option RangeRef} {front rest : List (Fin 21)}
    (last : s.pcc.lastIntake = some (q, range)) (closed : s.pcc.classOf q ≠ .opened)
    (group : s.groupOfRange range = front ++ q :: rest) (first : q ∉ front) :
    s.preTarget = rest.find? fun x => s.pcc.classOf x == .opened := by
  rw [preTarget_of_closed last closed, group, dropWhile_ne_append first]
  rfl

theorem find_opened_of_none {c : Carousel} {l : List (Fin 21)} (closed : ∀ x ∈ l, c.classOf x ≠ .opened) :
    l.find? (fun x => c.classOf x == .opened) = none := by
  simpa using closed

theorem find_opened_append {c : Carousel} {between rest : List (Fin 21)} {t : Fin 21}
    (closed : ∀ x ∈ between, c.classOf x ≠ .opened) (opened : c.classOf t = .opened) :
    (between ++ t :: rest).find? (fun x => c.classOf x == .opened) = some t := by
  rw [List.find?_append, find_opened_of_none closed]
  simp [opened]

/-- A last intake pocket that has left its range's group has none after it (R88). -/
theorem preTarget_of_regrouped {s : State} {q : Fin 21} {range : Option RangeRef}
    (last : s.pcc.lastIntake = some (q, range)) (closed : s.pcc.classOf q ≠ .opened)
    (gone : q ∉ s.groupOfRange range) : s.preTarget = none := by
  have none : (s.groupOfRange range).dropWhile (· ≠ q) = [] :=
    List.dropWhile_eq_nil_iff.mpr fun x hx => decide_eq_true fun e => gone (e ▸ hx)
  rw [preTarget_of_closed last closed, none]
  rfl

/-! ## The drum after a tip -/

/-- What lets the drum pre-position: the option is on, no request stands, the interlock is SECURE and the drum IDLE
(R88). -/
def mayPrePosition (s : State) : Prop :=
  s.pcc.prePosition = true ∧ s.pcc.queue = [] ∧ s.rc.hatch = .locked ∧ s.pins.hatchShut = true ∧ s.pcc.drum = .idle

theorem mayPrePosition_iff {s : State} :
    (s.pcc.prePosition && s.pcc.queue.isEmpty && s.secure && s.pcc.drum == .idle) = true ↔ mayPrePosition s := by
  simp [mayPrePosition, secure_iff, and_assoc]

theorem prePositionOrServe_of_not {s : State} (h : ¬ mayPrePosition s) : s.prePositionOrServe = s.serve :=
  if_neg (mayPrePosition_iff.not.mpr h)

theorem prePositionOrServe_of_none {s : State} (h : mayPrePosition s) (target : s.preTarget = none) :
    s.prePositionOrServe = s := by
  rw [State.prePositionOrServe, if_pos (mayPrePosition_iff.mpr h), target]

theorem prePositionOrServe_of_some {s : State} (h : mayPrePosition s) {t : Fin 21} (target : s.preTarget = some t) :
    s.prePositionOrServe = s.startMove t true := by
  rw [State.prePositionOrServe, if_pos (mayPrePosition_iff.mpr h), target]

/-- A move to where the drum stands takes no step (R80). -/
theorem startMove_here {s : State} {c : Fin 21} (position : s.pcc.position = some c) (pre : Bool) :
    s.startMove c pre = s := by
  simp only [State.startMove, position, Option.bind_some, planMove_eq_shorterWay, shorterWay_self]

/-! ## The tip -/

/-- The bag in its pocket with the hold and the station freed, before the drum and the chute are looked at (R76, R85, R88,
R109). -/
def tipped (s : State) (r : Record) (p : Fin 21) : State :=
  let t := completed { s with pcc := { s.pcc with hold := none } } r p
  { t with
    pcc := { t.pcc with
      queue := s.pcc.queue.filter fun q => q.source ≠ .intake
      lastIntake := if p = 0 then s.pcc.lastIntake else some (p, r.range) }
    intake := { s.intake with tipTimer := none, readings := {} } }

theorem filter_notIntake (l : List PosRequest) :
    (l.filter fun q => q.source != .intake) = l.filter fun q => q.source ≠ .intake :=
  List.filter_congr fun q _ => by by_cases e : q.source = .intake <;> simp [e]

theorem rememberIntake_eq (c : Carousel) (p : Fin 21) (range : Option RangeRef) :
    c.rememberIntake p range = { c with lastIntake := if p = 0 then c.lastIntake else some (p, range) } := by
  unfold Carousel.rememberIntake
  by_cases zero : p = 0
  · rw [if_pos zero, if_pos zero]
  · rw [if_neg zero, if_neg zero]

/-- The hold is gone when the bag comes into its pocket (R74, R109). -/
theorem place_released {s : State} {r : Record} (h : holds s r) (p : Fin 21) :
    (s.setHold none).place r p = completed { s with pcc := { s.pcc with hold := none } } r p :=
  place_of_holds (s := s.setHold none) h p

/-- The tip's completion, then the drum, then the chute (R109). -/
theorem completeTip_eq {s : State} {r : Record} (h : holds s r) (p : Fin 21) :
    s.completeTip r p = (tipped s r p).prePositionOrServe.testChute := by
  unfold State.completeTip tipped
  rw [← place_released h, ← filter_notIntake]
  refine congrArg (fun t => (State.prePositionOrServe t).testChute) ?_
  simp only [State.freeStation, rememberIntake_eq, State.setQueue_intake, State.setPcc_intake, State.place_intake,
    State.setHold_intake, State.place_pcc_queue, State.setHold_pcc_queue, State.setQueue_pcc_lastIntake,
    State.place_pcc_lastIntake, State.setHold_pcc_lastIntake]
  generalize (s.setHold none).place r p = u
  rfl

theorem tipped_table_and_position {s : State} {r : Record} (h : holds s r) (p : Fin 21) :
    (tipped s r p).trt = s.trt ∧ (tipped s r p).pcc.position = s.pcc.position := by
  unfold tipped
  rw [← place_released h]
  simp

/-- The placement leaves what the drum's leave to pre-position reads of the state before the tip (R88). -/
theorem mayPrePosition_tipped {s : State} {r : Record} (h : holds s r) (p : Fin 21) : mayPrePosition (tipped s r p) ↔
    s.pcc.prePosition = true ∧ (tipped s r p).pcc.queue = [] ∧ s.rc.hatch = .locked ∧ s.pins.hatchShut = true ∧
      s.pcc.drum = .idle := by
  unfold mayPrePosition tipped
  rw [← place_released h]
  simp

theorem exec_tipCompletion {s : State} {r : Record} {p : Fin 21} (running : s.resetHeld = false)
    (tip : s.intake.phase = .tip) (record : inIntake s r) (chosen : s.intake.readings.chosen = some p) :
    exec .tipCompletion s = .next (tipped s r p).prePositionOrServe.testChute := by
  simp only [exec, execTipCompletion, takeEvent_running running, tip, intakeRecord_of_inIntake record, chosen,
    completeTip_eq record.1]

/-- Only TIP hears the drawer-empty report (R108). -/
theorem exec_tipCompletion_of_other {s : State} (running : s.resetHeld = false) (other : s.intake.phase ≠ .tip) :
    exec .tipCompletion s = .next s := by
  simp only [exec, execTipCompletion, takeEvent_running running]
  split
  next tip _ _ => exact absurd tip other
  next => rfl

theorem exec_tipTimerExpiry {s : State} (running : s.resetHeld = false) : exec .tipTimerExpiry s =
    .next (if s.intake.phase = .tip ∧ s.intake.tipTimer.isSome = true then (jammedDrop s).serve else s) :=
  exec_event running rfl (by rw [← jam_eq_jammedDrop]; rfl)

/-- Settles O44: outside TIP nothing; in TIP the timer jams the drop, and the completion places the bag, after which the drum
serves, moves to its pre-position target or stays. -/
theorem tipPlacesTheBag : Obligations.TipPlacesTheBag := by
  intro s running
  refine ⟨fun other => ⟨exec_tipCompletion_of_other running other, ?_⟩, fun tip timer => ?_,
    fun r p tip record chosen => ?_⟩
  · rw [exec_tipTimerExpiry running, if_neg fun h => other h.1]
  · rw [exec_tipTimerExpiry running, if_pos ⟨tip, timer⟩]
  intro t u free
  have done : exec .tipCompletion s = .next u.prePositionOrServe.testChute := exec_tipCompletion running tip record chosen
  have may : mayPrePosition u ↔ free := mayPrePosition_tipped record.1 p
  obtain ⟨table, place⟩ : u.trt = s.trt ∧ u.pcc.position = s.pcc.position := tipped_table_and_position record.1 p
  have groups : ∀ range, u.groupOfRange range = s.groupOfRange range := fun range => by
    simp only [State.groupOfRange, table]
  have stays : free → u.preTarget = none → exec .tipCompletion s = .next u.testChute := fun ready none => by
    rw [done, prePositionOrServe_of_none (may.mpr ready) none]
  refine ⟨fun busy => ?_, fun ready last => stays ready (preTarget_of_none last),
    fun q range c target dir n ready last position aim => ?_, fun q range ready last closed gone => ?_,
    fun q range front rest ready last group first closed => ?_⟩
  · rw [done, prePositionOrServe_of_not (may.not.mpr busy)]
  · have target : u.preTarget = some target := by
      obtain ⟨opened, rfl⟩ | ⟨closed, front, between, rest, group, first, passed, opened⟩ := aim
      · exact preTarget_of_opened last opened
      · rw [preTarget_of_group last closed ((groups range).trans group) first, find_opened_append passed opened]
    rw [done, prePositionOrServe_of_some (may.mpr ready) target]
    refine ⟨fun way => ?_, fun here => ?_⟩
    · rw [startMove_eq_setOff (place.trans position) way]
      rfl
    · rw [← here, startMove_here (place.trans position)]
  · exact stays ready (preTarget_of_regrouped last closed (by rw [groups]; exact gone))
  · refine stays ready ?_
    rw [preTarget_of_group last (closed q (by simp)) ((groups range).trans group) first,
      find_opened_of_none fun x hx => closed x (List.mem_cons_of_mem q hx)]

end Sys2Proof.DropProofs
end

section
/-! PROOF. JAMC: what it is refused for, and the jammed drop placed in a pocket or taken out (R111 to R114). -/

namespace Sys2Proof.DropProofs

open Sys2Proof.Machine Sys2Proof.Safety Sys2Proof.CustodyProofs

/-! ## Dispositions -/

theorem dispositionOf_pocket {d : BitVec 8} {p : Fin 21} (h : d.toNat = p.val) : dispositionOf d = some (.pocket p) := by
  have notRemoved : d ≠ 255#8 := by
    rintro rfl
    exact absurd (h ▸ p.isLt) (by decide)
  rw [dispositionOf, if_neg notRemoved, pocketOf_of_toNat h]
  rfl

theorem dispositionOf_removed : dispositionOf 255#8 = some .removed := rfl

theorem dispositionOf_eq_none {d : BitVec 8} (h : ¬ (d.toNat ≤ 20 ∨ d = 255#8)) : dispositionOf d = none := by
  obtain ⟨high, notRemoved⟩ := not_or.mp h
  rw [dispositionOf, if_neg notRemoved, pocketOf_eq_none (Nat.not_le.mp high)]
  rfl

theorem exists_dispositionOf {d : BitVec 8} (h : d.toNat ≤ 20 ∨ d = 255#8) : ∃ x, dispositionOf d = some x := by
  obtain pocket | rfl := h
  · exact ⟨_, dispositionOf_pocket (p := ⟨d.toNat, Nat.lt_succ_of_le pocket⟩) rfl⟩
  · exact ⟨_, dispositionOf_removed⟩

/-! ## The request -/

section Request

variable {s : State} (idle : branchIdle s) {id : BitVec 24} {d : BitVec 8}

include idle

theorem exec_jamc_of_none (none : dispositionOf d = none) :
    exec (.jamc id d) s = .next (branchReply s .jamc .badValue []) := by
  simp only [exec, execJamc, takeRequest_branch idle, none]
  rfl

variable {x : Disposition} (disposition : dispositionOf d = some x)

include disposition

theorem exec_jamc_of_phase (other : s.intake.phase ≠ .jammed) :
    exec (.jamc id d) s = .next (branchReply s .jamc .badState []) := by
  simp only [exec, execJamc, takeRequest_branch idle, disposition, if_pos other]
  rfl

variable (phase : s.intake.phase = .jammed)

include phase

theorem exec_jamc_of_role (denied : s.role id ≠ some .supervisor) :
    exec (.jamc id d) s = .next (branchReply s .jamc .deny []) := by
  simp only [exec, execJamc, takeRequest_branch idle, disposition, if_neg (not_not.mpr phase), if_pos denied]
  rfl

variable (role : s.role id = some .supervisor) {r : Record} (record : s.intakeRecord = some r)

include role record

theorem exec_jamc_of_noRoom (full : s.noRoomFor r x = true) :
    exec (.jamc id d) s = .next (branchReply s .jamc .noRoom []) := by
  simp only [exec, execJamc, takeRequest_branch idle, disposition, if_neg (not_not.mpr phase), if_neg (not_not.mpr role),
    record, if_pos full]
  rfl

theorem exec_jamc_of_room (room : s.noRoomFor r x = false) : exec (.jamc id d) s =
    .next (branchReply (s.settleJam r x).leaveJammed .jamc .ok
      ((s.settleJam r x).leaveJammed.summaryOf r.receipt)) := by
  simp only [exec, execJamc, takeRequest_branch idle, disposition, if_neg (not_not.mpr phase), if_neg (not_not.mpr role),
    record, if_neg (Bool.eq_false_iff.mp room)]
  rfl

end Request

/-! ## The record settled -/

/-- The one record of its receipt, after it has changed. -/
theorem record_of_updateReceipt {s t : State} {r : Record} {f : Record → Record} (h : holds s r)
    (records : t.cr.records = updateReceipt s.cr.records r.receipt f) (receipt : (f r).receipt = r.receipt) :
    t.record r.receipt = some (f r) := by
  obtain ⟨hmem, only⟩ := h
  rw [← receipt]
  refine findReceipt_some ?_ fun y hy e => ?_
  · exact records ▸ mem_updateReceipt.mpr ⟨r, hmem, (if_pos rfl).symm⟩
  · obtain ⟨x, hx, rfl⟩ := mem_updateReceipt.mp (records ▸ hy)
    split at e
    next same =>
      rw [if_pos same, only x hx same]
    next other => exact absurd (e.trans receipt) other

theorem summaryOf_leaveJammed {s t : State} {r : Record} {f : Record → Record} (h : holds s r)
    (records : t.cr.records = updateReceipt s.cr.records r.receipt f) (receipt : (f r).receipt = r.receipt) :
    t.leaveJammed.summaryOf r.receipt = (f r).summary := by
  have kept : t.leaveJammed.cr.records = updateReceipt s.cr.records r.receipt f := by
    simpa [State.leaveJammed, State.clearReadings] using records
  rw [State.summaryOf, record_of_updateReceipt h kept receipt]
  rfl

/-- The jammed record of the drop with its flag JAMMED cleared (R112). -/
def unjammed (s : State) (r : Record) : State := s.update r.receipt fun x => { x with jammed := false }

/-- A jammed drop placed in a pocket, as at a tip (R8, R112). -/
theorem settleJam_pocket {s : State} {r : Record} (h : holds s r) (p : Fin 21) :
    s.settleJam r (.pocket p) = completed (unjammed s r) r p := by
  refine place_eq_completed p fun y hy e => ?_
  obtain ⟨x, hx, rfl⟩ := mem_updateReceipt.mp hy
  split at e
  next same =>
    rw [if_pos same, h.2 x hx same]
    exact ⟨rfl, rfl⟩
  next other => exact absurd e other

theorem settleJam_pocket_records (s : State) (r : Record) (p : Fin 21) : (s.settleJam r (.pocket p)).cr.records =
    updateReceipt s.cr.records r.receipt fun x =>
      Record.placed { x with jammed := false } p s.cr.graceInterval s.ls.clock :=
  (place_records (unjammed s r) r p).trans (updateReceipt_updateReceipt fun _ => rfl)

/-- A record taken out of the module by hand (R113). -/
def takenOut (x : Record) : Record :=
  { x with state := .staged, location := .out, countRequired := true, jammed := false }

/-- A jammed drop taken out (R8, R113, R153). -/
theorem settleJam_removed (s : State) (r : Record) : s.settleJam r .removed =
    { s with
      cr := { s.cr with records := changed s r takenOut }
      rc := { s.rc with
        handoverTimers := insertTimer r.receipt s.rc.handoverInterval
          (s.rc.handoverTimers.filter fun h => h.1 ≠ r.receipt) } } := by
  rw [← bne_eq_decide_ne]
  rfl

/-- Settles O45: the refusals in their order, and the two ways in which a jammed drop is settled. -/
theorem jamcSettlesTheDrop : Obligations.JamcSettlesTheDrop := by
  intro id d s idle
  refine ⟨fun noCode => exec_jamc_of_none idle (dispositionOf_eq_none noCode), fun code other => ?_,
    fun code phase denied => ?_, fun r size phase supervisor drop hasSize positive => ?_⟩
  · obtain ⟨x, disposition⟩ := exists_dispositionOf code
    exact exec_jamc_of_phase idle disposition other
  · obtain ⟨x, disposition⟩ := exists_dispositionOf code
    refine exec_jamc_of_role idle disposition phase ?_
    obtain unknown | teller := denied
    · simp [role_of_notRostered unknown]
    · simp [role_of_hasRole teller]
  have role := role_of_hasRole supervisor
  have record := intakeRecord_of_inIntake drop
  obtain ⟨only, -, -⟩ := drop
  have room : ∀ p, s.noRoomFor r (.pocket p) = false ↔ hasRoom s p size := fun p => by
    rw [State.noRoomFor, hasSize, Bool.not_eq_false', SettingsProofs.fits_iff s p positive]
  refine ⟨fun p number full => ?_, fun p number fits => ?_, fun removed => ?_⟩
  · exact exec_jamc_of_noRoom idle (dispositionOf_pocket number) phase role record
      (eq_true_of_ne_false ((room p).not.mpr full))
  · refine (exec_jamc_of_room idle (dispositionOf_pocket number) phase role record ((room p).mpr fits)).trans ?_
    rw [summaryOf_leaveJammed only (settleJam_pocket_records s r p) rfl, settleJam_pocket only, placed_eq]
    rfl
  · subst removed
    refine (exec_jamc_of_room idle dispositionOf_removed phase role record rfl).trans ?_
    rw [summaryOf_leaveJammed (f := takenOut) only rfl rfl, settleJam_removed]
    rfl

end Sys2Proof.DropProofs
end

section
/-! PROOF. The fields of an ADVS, read as the advice that they carry (R118, R119). -/

namespace Sys2Proof.AdviceProofs

open Sys2Proof.Machine Sys2Proof.Safety Sys2Proof.SettingsProofs Sys2Proof.CustodyProofs

/-! ## Lines -/

/-- The line that a field carries (R118). -/
def carriedLine (f : LineField) : BreakdownLine := { denom := Fin.ofNat 16 f.denom.toNat, count := f.count.toNat }

/-- A line that R119 takes: a denomination number in range whose entry is set, and a count of 1 to 9,999. -/
def lineGood (denoms : Vector Denomination 16) (f : LineField) : Prop :=
  f.denom.toNat ≤ 15 ∧ 1 ≤ f.count.toNat ∧ f.count.toNat ≤ 9999 ∧
    ∀ d : Fin 16, f.denom.toNat = d.val → denoms[d].face ≠ 0

theorem carriedLine_denom_val {f : LineField} (h : f.denom.toNat ≤ 15) : f.denom.toNat = (carriedLine f).denom.val :=
  (Nat.mod_eq_of_lt (by omega)).symm

/-- A line is read exactly when it is good, and as what it carries (R119). -/
theorem lineOf_eq_some_iff {denoms : Vector Denomination 16} {f : LineField} {l : BreakdownLine} :
    lineOf denoms f = some l ↔ lineGood denoms f ∧ l = carriedLine f := by
  unfold lineOf lineGood
  simp only [Option.bind_eq_bind, Option.bind_eq_some_iff, denomOf_eq_some_iff]
  constructor
  · rintro ⟨d, number, read⟩
    have bound : f.denom.toNat ≤ 15 := by omega
    obtain rfl : d = (carriedLine f).denom := Fin.ext (number.symm.trans (carriedLine_denom_val bound))
    split at read
    next good =>
      obtain ⟨low, high, faced⟩ := good
      refine ⟨⟨bound, low, high, fun d same => ?_⟩, (Option.some.inj read).symm⟩
      rwa [Fin.ext (same.symm.trans number)]
    next => cases read
  · rintro ⟨⟨bound, low, high, faced⟩, rfl⟩
    have number := carriedLine_denom_val bound
    exact ⟨_, number, if_pos ⟨low, high, faced _ number⟩⟩

/-- A list whose entries are read one by one is read whole exactly when every entry is good. -/
theorem allSome_map_eq_some_iff {α β : Type} {f : α → Option β} {good : α → Prop} {g : α → β}
    (read : ∀ a b, f a = some b ↔ good a ∧ b = g a) {l : List α} {xs : List β} :
    allSome (l.map f) = some xs ↔ (∀ a ∈ l, good a) ∧ xs = l.map g := by
  refine ⟨fun h => ⟨fun a ha => ?_, ?_⟩, ?_⟩
  · have mem : f a ∈ xs.map some := allSome_eq_some_iff.mp h ▸ List.mem_map_of_mem ha
    obtain ⟨b, -, e⟩ := List.mem_map.mp mem
    exact ((read a b).mp e.symm).1
  · simpa using map_eq_map_of_read (k := id) h fun a b e => ((read a b).mp e).2
  · rintro ⟨good, rfl⟩
    rw [allSome_eq_some_iff, List.map_map]
    exact List.map_congr_left fun a ha => (read a (g a)).mpr ⟨good a ha, rfl⟩

/-- Lines in range repeat a denomination exactly when their bytes do. -/
theorem nodup_carriedLines {lines : List LineField} (h : ∀ f ∈ lines, f.denom.toNat ≤ 15) :
    ((lines.map carriedLine).map fun l => l.denom).Nodup ↔ (lines.map LineField.denom).Nodup := by
  have bytes : lines.map LineField.denom = ((lines.map carriedLine).map fun l => l.denom).map fun d => byte d.val := by
    rw [List.map_map, List.map_map]
    exact List.map_congr_left fun f hf => (byte_of_toNat (carriedLine_denom_val (h f hf))).symm
  have byte_injective : Function.Injective fun d : Fin 16 => byte d.val := by decide
  rw [bytes, List.nodup_map_iff byte_injective]

/-! ## The whole advice -/

/-- Good fields, condition by condition (R119). -/
theorem not_badAdvice_iff {s : State} {tag : Tag} {declared : BitVec 40} {lines : List LineField} :
    ¬ badAdvice s tag declared lines ↔
      (isTag tag = true ∧ 1 ≤ lines.length ∧ lines.length ≤ 8 ∧ declared.toNat ≤ Config.declaredLimit) ∧
      (∀ f ∈ lines, lineGood s.wau.denoms f) ∧ (lines.map LineField.denom).Nodup := by
  simp only [badAdvice, lineGood, not_or, not_exists, not_and, not_not, Nat.not_lt, isTag, Bool.and_eq_true, bne_iff_ne,
    Config.declaredLimit]
  constructor
  · rintro ⟨low, high, one, eight, numbers, counts, distinct, faced, limit⟩
    refine ⟨⟨⟨low, high⟩, by omega, eight, limit⟩, fun f hf => ⟨numbers f hf, ?_, ?_, faced f hf⟩, distinct⟩ <;>
      have := counts f hf <;> omega
  · rintro ⟨⟨⟨low, high⟩, one, eight, limit⟩, good, distinct⟩
    refine ⟨low, high, by omega, eight, fun f hf => (good f hf).1, fun f hf => ?_, distinct,
      fun f hf => (good f hf).2.2.2, limit⟩
    obtain ⟨-, low, high, -⟩ := good f hf
    omega

/-- The fields are read exactly when they are good, and as the advice that they carry (R118, R119). -/
theorem adviceOf_eq_some_iff {s : State} {tag : Tag} {customer : BitVec 24} {declared : BitVec 40}
    {lines : List LineField} {a : Advice} : adviceOf s.wau.denoms tag customer declared lines = some a ↔
      ¬ badAdvice s tag declared lines ∧ a = adviceCarried customer declared lines := by
  rw [not_badAdvice_iff]
  unfold adviceOf
  split
  next whole =>
    simp only [Option.map_eq_some_iff, Option.filter_eq_some_iff, decide_eq_true_eq,
      allSome_map_eq_some_iff fun _ _ => lineOf_eq_some_iff]
    constructor
    · rintro ⟨_, ⟨⟨good, rfl⟩, distinct⟩, rfl⟩
      exact ⟨⟨whole, good, (nodup_carriedLines fun f hf => (good f hf).1).mp distinct⟩, rfl⟩
    · rintro ⟨⟨-, good, distinct⟩, rfl⟩
      exact ⟨_, ⟨⟨good, rfl⟩, (nodup_carriedLines fun f hf => (good f hf).1).mpr distinct⟩, rfl⟩
  next broken => exact iff_of_false nofun fun h => broken h.1.1

end Sys2Proof.AdviceProofs
end

section
/-! PROOF. ADVS, row by row of its table: the fields, a record created, an advice replaced, and the refusals (R115, R119
to R122, R129). -/

namespace Sys2Proof.AdviceProofs

open Sys2Proof.Machine Sys2Proof.Safety Sys2Proof.CustodyProofs

/-! ## The request -/

section Fields

variable {s : State} (idle : branchIdle s) {tag : Tag} {customer : BitVec 24} {declared : BitVec 40}
  {lines : List LineField}

include idle

theorem exec_advs_of_bad (bad : badAdvice s tag declared lines) :
    exec (.advs tag customer declared lines) s = .next (branchReply s .advs .badValue []) := by
  have unread : adviceOf s.wau.denoms tag customer declared lines = none :=
    Option.eq_none_iff_forall_ne_some.mpr fun a read => (adviceOf_eq_some_iff.mp read).1 bad
  simp only [exec, execAdvs, takeRequest_branch idle, unread]
  rfl

/-- Good fields go on to the table of R120. -/
theorem exec_advs_of_good (good : ¬ badAdvice s tag declared lines) {t : State} {answer : Answer}
    (h : s.advise tag (adviceCarried customer declared lines) = (t, answer)) :
    exec (.advs tag customer declared lines) s = .next (branchReply t .advs answer.word answer.data) := by
  have read : adviceOf s.wau.denoms tag customer declared lines = some (adviceCarried customer declared lines) :=
    adviceOf_eq_some_iff.mpr ⟨good, rfl⟩
  simp only [exec, execAdvs, takeRequest_branch idle, read, h]

end Fields

/-- No row of R120 answers BAD_VALUE. -/
theorem advise_word_ne_badValue (s : State) (tag : Tag) (a : Advice) : (s.advise tag a).2.word ≠ .badValue := by
  unfold State.advise
  cases s.claimant tag with
  | none =>
    dsimp only
    split <;> simp [ok, refuse]
  | some r =>
    cases state : r.state with
    | advised | missing | intake | staged | overdue => simp [state, ok, refuse]
    | grace =>
      simp only [state]
      split <;> simp [ok, refuse]
    | held =>
      simp only [state]
      split
      · simp [refuse]
      · split <;> simp [refuse]

/-- A reply under way tells its outcome word. -/
theorem word_of_branchReply {s t : State} {r : ReqName} {w v : OutcomeWord} {x y : List Byte}
    (h : branchReply s r w x = branchReply t r v y) : w = v := by
  have reply := congrArg (fun u : State => u.ls.branch.reply.map fun p => p.answer.word) h
  exact Option.some.inj reply

/-- Settles O15: bad fields are not read, and no later row answers as they are answered. -/
theorem advsChecksItsFields : Obligations.AdvsChecksItsFields := by
  intro tag customer declared lines s idle
  refine ⟨exec_advs_of_bad idle, fun good t data same => ?_⟩
  rw [exec_advs_of_good idle good rfl] at same
  exact advise_word_ne_badValue _ _ _ (word_of_branchReply (Host.Outcome.next.inj same))

/-! ## An unclaimed tag -/

section Unclaimed

variable {s : State} {tag : Tag} (free : s.claimant tag = none) (a : Advice)

include free

theorem advise_of_full (full : 368 ≤ s.cr.records.length) : s.advise tag a = refuse s .full := by
  have reserved : ¬ Config.adviceReserve < s.freeSlots := by
    simp only [Config.adviceReserve, State.freeSlots, Config.slots]
    omega
  simp only [State.advise, free, if_neg reserved]

theorem advise_of_room (room : s.cr.records.length < 368) : s.advise tag a =
    ok (s.create (advisedRecord tag a)) ((s.create (advisedRecord tag a)).summaryOf s.freshReceipt) := by
  have enough : Config.adviceReserve < s.freeSlots := by
    simp only [Config.adviceReserve, State.freeSlots, Config.slots]
    omega
  simp only [State.advise, free, if_pos enough]

end Unclaimed

/-- The new record is found by its receipt. -/
theorem record_withNew {s : State} {r : Record} {n : Nat} {before rest : List Record}
    (place : freshPlace s n before rest) (receipt : r.receipt = n) : (withNew s before rest r).record n = some r := by
  subst receipt
  obtain ⟨-, low, high, -⟩ := place
  refine findReceipt_some (List.mem_append_right before (List.mem_cons_self ..)) fun x hx same => ?_
  obtain hx | hx := List.mem_append.mp hx
  · exact absurd same (low x hx).ne
  · obtain rfl | hx := List.mem_cons.mp hx
    · rfl
    · exact absurd same (high x hx).ne'

/-- Settles O16: the free slots decide, and the new record stands in the place of its fresh receipt. -/
theorem advsCreatesARecord : Obligations.AdvsCreatesARecord := by
  intro tag customer declared lines s idle good unclaimed
  have free := claimant_of_unclaimed unclaimed
  refine ⟨fun full => ?_, fun room ordered => ?_⟩
  · exact exec_advs_of_good idle good (advise_of_full free _ full)
  · obtain ⟨before, rest, place, created⟩ := create_eq_withNew ordered
      (advisedRecord tag (adviceCarried customer declared lines)) fun _ => rfl
    refine ⟨s.freshReceipt, before, rest, place, ?_⟩
    rw [exec_advs_of_good idle good (advise_of_room free _ room), created, State.summaryOf, record_withNew place rfl]
    rfl

/-! ## A claimed tag -/

section Claimed

variable {s : State} {tag : Tag} {r : Record} (claim : claims s tag r) (a : Advice)

include claim

/-- The advice of an ADVISED or MISSING record is replaced whole (R122). -/
theorem advise_of_absent (absent : r.state = .advised ∨ r.state = .missing) : s.advise tag a =
    ok (s.update r.receipt fun x => { x with advice := some a }) { r with advice := some a }.summary := by
  have read : (s.update r.receipt fun x => { x with advice := some a }).summaryOf r.receipt =
      { r with advice := some a }.summary := by
    rw [State.summaryOf, DropProofs.record_of_updateReceipt claim.2 rfl rfl]
    rfl
  simp only [State.advise, claimant_of_claims claim]
  obtain state | state := absent <;> simp only [state, read]

theorem advise_of_intake (state : r.state = .intake) : s.advise tag a = refuse s .collide := by
  simp only [State.advise, claimant_of_claims claim, state]

/-- An attachment waits for two free places in the job queue (R129). -/
theorem advise_of_busy (bag : r.state = .grace ∨ r.state = .held ∧ r.mark = .none) (busy : 5 ≤ s.wau.queue.length) :
    s.advise tag a = refuse s .busy := by
  have places : ¬ 2 ≤ s.freePlaces := by
    simp only [State.freePlaces, Config.jobPlaces]
    omega
  simp only [State.advise, claimant_of_claims claim]
  obtain state | ⟨state, unadvised⟩ := bag
  · simp only [state, if_neg places]
  · simp only [state, if_neg (not_not.mpr unadvised), if_neg places]

theorem advise_of_badState (bad : r.state = .held ∧ r.mark ≠ .none ∨ r.state = .staged ∨ r.state = .overdue) :
    s.advise tag a = refuse s .badState := by
  simp only [State.advise, claimant_of_claims claim]
  obtain ⟨state, advised⟩ | state | state := bad
  · simp only [state, if_pos advised]
  · simp only [state]
  · simp only [state]

end Claimed

/-- Settles O17: the state of the claiming record decides the row. -/
theorem advsReplacesOrRefuses : Obligations.AdvsReplacesOrRefuses := by
  intro tag customer declared lines r s idle good claim
  refine ⟨fun absent => ?_, fun state => ?_, fun bag busy => ?_, fun bad => ?_⟩
  · exact exec_advs_of_good idle good (advise_of_absent claim _ absent)
  · exact exec_advs_of_good idle good (advise_of_intake claim _ state)
  · exact exec_advs_of_good idle good (advise_of_busy claim _ bag busy)
  · exact exec_advs_of_good idle good (advise_of_badState claim _ bad)

end Sys2Proof.AdviceProofs
end

section
/-! PROOF. An advice attached to a bag in a pocket (R77, R124, R125, R127). -/

namespace Sys2Proof.AdviceProofs

open Sys2Proof.Machine Sys2Proof.Safety Sys2Proof.CustodyProofs

/-- The state with an advice attached to a record in pocket p, before the WAU looks at its queue: the record HELD and
PENDING, the declared sums risen, the job at the tail (R53, R77, R124). -/
def withAttached (s : State) (r : Record) (p : Fin 21) (a : Advice) (m : AdviceMark) : State :=
  { s with
    cr := { s.cr with
      records := changed s r (attached a m)
      totals := { s.cr.totals with declared := min 999999999999 (s.cr.totals.declared + a.declared) } }
    pcc := { s.pcc with pockets := s.pcc.pockets.set p { s.pcc.pockets[p] with
      declared := s.pcc.pockets[p].declared + a.declared } }
    wau := { s.wau with queue := s.wau.queue ++ [{ receipt := r.receipt, tag := r.tag }] } }

theorem attach_eq_startWau {s : State} {r : Record} {p : Fin 21} (pocket : r.location = .pocket p) (a : Advice)
    (m : AdviceMark) : s.attach r a m = (withAttached s r p a m).startWau := by
  have written : updateReceipt (updateReceipt s.cr.records r.receipt fun x =>
        { x with advice := some a, mark := m, state := .held, grace := none }) r.receipt
        (fun x => { x with verdict := some .pending }) =
      updateReceipt s.cr.records r.receipt (attached a m) :=
    updateReceipt_updateReceipt fun _ => rfl
  unfold State.attach State.queueJob State.raiseDeclared
  simp only [pocket]
  refine congrArg State.startWau ?_
  unfold withAttached changed
  rw [← updateReceipt, ← written]
  rfl

/-- The summary of an attachment's reply. A late one is read after the raise of its flag, which leaves the register as
it was. -/
theorem summaryOf_attached {s t : State} {r : Record} (h : holds s r) {a : Advice} {m : AdviceMark}
    (kept : t.cr = (s.attach r a m).cr) : t.summaryOf r.receipt = (attached a m r).summary := by
  have records : t.cr.records = updateReceipt s.cr.records r.receipt (attached a m) :=
    kept ▸ attach_records s r a m
  rw [State.summaryOf, DropProofs.record_of_updateReceipt h records rfl]
  rfl

section Attached

variable {s : State} {tag : Tag} {r : Record} (claim : claims s tag r) (a : Advice) (room : s.wau.queue.length ≤ 4)

include claim room

theorem advise_of_grace (state : r.state = .grace) :
    s.advise tag a = ok (s.attach r a .inGrace) (attached a .inGrace r).summary := by
  have places : 2 ≤ s.freePlaces := show 2 ≤ 6 - s.wau.queue.length by omega
  simp only [State.advise, claimant_of_claims claim, state, if_pos places, summaryOf_attached claim.2 rfl]

theorem advise_of_late (state : r.state = .held) (unadvised : r.mark = .none) :
    s.advise tag a = (raised (s.attach r a .late) .lateAdvice,
      { word := .late, data := (attached a .late r).summary }) := by
  have places : 2 ≤ s.freePlaces := show 2 ≤ 6 - s.wau.queue.length by omega
  simp only [State.advise, claimant_of_claims claim, state, if_neg (not_not.mpr unadvised), if_pos places,
    raise_eq_raised, summaryOf_attached (t := raised (s.attach r a .late) .lateAdvice) claim.2 rfl]

end Attached

/-- Settles O18: two free places let the advice attach, in GRACE or late. -/
theorem advsAttaches : Obligations.AdvsAttaches := by
  intro tag customer declared lines r p s idle good claim pocket room
  refine ⟨fun state => ?_, fun state unadvised => ?_⟩
  · rw [exec_advs_of_good idle good (advise_of_grace claim _ room state), attach_eq_startWau pocket]
    rfl
  · rw [exec_advs_of_good idle good (advise_of_late claim _ room state unadvised), attach_eq_startWau pocket]
    rfl

end Sys2Proof.AdviceProofs
end

section
/-! PROOF. WDRW and RETR: what they are refused for, and the claiming record removed (R96, R115, R130, R131). -/

namespace Sys2Proof.AdviceProofs

open Sys2Proof.Machine Sys2Proof.Safety

/-- A removal is the one of R12. -/
theorem remove_eq_withoutRecord (s : State) (r : Record) : s.remove r.receipt = withoutRecord s r := by
  simp [State.remove, State.stopHandover, withoutRecord, bne, beq_eq_decide]

section Withdrawal

variable {s : State} {tag : Tag} (wanted : RecState)

theorem withdrawAdvice_of_noTag (h : tag = 0#32 ∨ tag = 0xFFFFFFFF#32) :
    s.withdrawAdvice tag wanted = refuse s .badValue := by
  obtain rfl | rfl := h <;> rfl

variable (low : tag ≠ 0#32) (high : tag ≠ 0xFFFFFFFF#32)

include low high

theorem withdrawAdvice_of_unclaimed (free : unclaimed s tag) : s.withdrawAdvice tag wanted = refuse s .notFound := by
  simp [State.withdrawAdvice, low, high, claimant_of_unclaimed free]

theorem withdrawAdvice_of_claims {r : Record} (claim : claims s tag r) : s.withdrawAdvice tag wanted =
    if r.state = .intake then refuse s .collide
    else if r.state ≠ wanted then refuse s .badState
    else ok (withoutRecord s r).retest r.summary := by
  simp [State.withdrawAdvice, low, high, claimant_of_claims claim, remove_eq_withoutRecord]

end Withdrawal

/-- Settles O19: both requests are one withdrawal, from the state that each wants. -/
theorem advicesAreWithdrawnAndRetired : Obligations.AdvicesAreWithdrawnAndRetired := by
  intro c name wanted tag s idle request
  have answers {t : State} {answer : Answer} (h : s.withdrawAdvice tag wanted = (t, answer)) :
      exec c s = .next (branchReply t name answer.word answer.data) := by
    obtain ⟨rfl, rfl, rfl⟩ | ⟨rfl, rfl, rfl⟩ := request <;>
      simp only [exec, execWdrw, execRetr, takeRequest_branch idle, h]
  have notIntake : wanted ≠ .intake := by
    obtain ⟨-, -, rfl⟩ | ⟨-, -, rfl⟩ := request <;> decide
  refine ⟨fun noTag => ?_, fun low high free => ?_, fun r low high claim => ?_⟩
  · exact answers (withdrawAdvice_of_noTag wanted noTag)
  · exact answers (withdrawAdvice_of_unclaimed wanted low high free)
  have row := withdrawAdvice_of_claims wanted low high claim
  refine ⟨fun intake => ?_, fun notDropped other => ?_, fun state => ?_⟩
  · exact answers (row.trans (if_pos intake))
  · exact answers (row.trans ((if_neg notDropped).trans (if_pos other)))
  · exact answers (row.trans ((if_neg (state ▸ notIntake)).trans (if_neg (not_not.mpr state))))

end Sys2Proof.AdviceProofs
end

section
/-! PROOF. What the release controller's operations do, said once: the idle timer, the roster, a staging, a return, and the
first HELD record of a pocket (R10, R11, R17, R77, R135, R141, R147, R148, R153). -/

namespace Sys2Proof.ReleaseProofs

open Sys2Proof.Machine Sys2Proof.Safety Sys2Proof.CustodyProofs Sys2Proof.CarouselProofs

/-! ## The idle timer -/

theorem restartIdle_eq_idleRestarted (s : State) : s.restartIdle = idleRestarted s := by
  unfold State.restartIdle State.setRc idleRestarted
  cases session : s.rc.session <;> simp [← session]

/-- Only an OPEN session has an idle timer (R141). -/
theorem idleRestarted_of_not_opened {s : State} (h : ¬ ∃ left, s.rc.session = .opened left) : idleRestarted s = s := by
  unfold idleRestarted
  cases session : s.rc.session with
  | opened left => exact absurd ⟨left, session⟩ h
  | closed | pairing _ _ => simp [← session]

theorem idleRestarted_of_opened {s : State} {left : Nat} (h : s.rc.session = .opened left) :
    idleRestarted s = { s with rc := { s.rc with session := .opened s.rc.idleInterval } } := by
  simp [idleRestarted, h]

/-- A panel request on a free line, by what its owner answers with the idle timer restarted (R141, R164). -/
theorem takePanel_next {s t : State} (idle : panelIdle s) {r : ReqName} {owner : State → State × Answer} {a : Answer}
    (h : owner (idleRestarted s) = (t, a)) :
    takePanel s r.code owner = .next (panelReply t r a.word a.data) := by
  rw [takePanel_panel idle, restartIdle_eq_idleRestarted, h]

/-! ## The roster -/

/-- The role looked up is that of the first entry with the id (R135). -/
theorem role_eq_some_iff {s : State} {id : BitVec 24} {role : Role} : s.role id = some role ↔ hasRole s id role := by
  refine ⟨fun h => ?_, role_of_hasRole⟩
  obtain ⟨m, found, rfl⟩ := Option.map_eq_some_iff.mp h
  obtain ⟨same, before, after, roster, others⟩ := List.find?_eq_some_iff_append.mp found
  exact ⟨before, after, m, roster, by simpa using same, rfl, by simpa using others⟩

theorem isSupervisor_iff {s : State} {id : BitVec 24} : s.isSupervisor id = true ↔ hasRole s id .supervisor := by
  rw [State.isSupervisor, beq_iff_eq, role_eq_some_iff]

/-- A number that is no staff id (R139). -/
theorem staffIdOf_of_out {id : BitVec 24} (out : id.toNat = 0 ∨ 999999 < id.toNat) : staffIdOf id = none :=
  if_neg (by unfold Config.staffLimit; omega)

theorem staffIdOf_of_in {id : BitVec 24} (inside : ¬ (id.toNat = 0 ∨ 999999 < id.toNat)) :
    staffIdOf id = some id.toNat :=
  if_pos (by unfold Config.staffLimit; omega)

/-! ## Records at the hatch -/

/-- A receipt taken out of a list, with the test as `staged` writes it. -/
theorem filter_bne_eq_ne (l : List Nat) (n : Nat) : (l.filter fun m => m != n) = l.filter fun m => m ≠ n :=
  List.filter_congr fun m _ => by simp [bne, beq_eq_decide]

/-- A staging is the one of R10, R77 and R153. -/
theorem stage_eq_staged (s : State) (r : Record) (q : Fin 21) :
    s.stage r q = staged s r q (countRequired s.rc.policy r) := by
  unfold staged
  rw [← filter_bne_eq_ne, ← bne_eq_decide_ne]
  rfl

/-- The flags of a pocket and the handover timers do not touch one another. -/
theorem stopHandover_flagged (s : State) (q : Fin 21) (n : Nat) :
    (flagged s q).stopHandover n = flagged (s.stopHandover n) q := by
  unfold flagged
  simp only [State.stopHandover]
  cases s.pcc.classOf q <;> rfl

/-- A return is the one of R11, R76 and R148. -/
theorem giveBack_eq_returned (s : State) (r : Record) (q : Fin 21) : s.giveBack r q = returned s r q := by
  unfold State.giveBack returned
  dsimp only
  rw [DropProofs.enterPocket_eq_flagged, stopHandover_flagged, ← bne_eq_decide_ne]
  rfl

/-- The first receipt of a pocket's list whose record is HELD and passes the test (R17). -/
theorem firstHeld_eq_some {s : State} {p : Fin 21} {test : Record → Bool} {r : Record} {before after : List Nat}
    (only : holds s r) (list : s.cr.lists[p] = before ++ r.receipt :: after) (held : r.state = .held)
    (passes : test r = true)
    (earlier : ∀ x ∈ s.cr.records, x.receipt ∈ before → x.state ≠ .held ∨ test x = false) :
    s.firstHeld p test = some r := by
  have passed : (before.filterMap s.record).find? (fun x => x.state == .held && test x) = none := by
    refine List.find?_eq_none.mpr fun x hx => ?_
    obtain ⟨n, hn, found⟩ := List.mem_filterMap.mp hx
    obtain ⟨mem, rfl⟩ := mem_of_record found
    obtain other | fails := earlier x mem hn
    · simp [other]
    · simp [fails]
  unfold State.firstHeld
  rw [list, List.filterMap_append, List.filterMap_cons_some (record_of_holds only), List.find?_append, passed]
  simp [held, passes]

theorem firstHeld_eq_none {s : State} {p : Fin 21} {test : Record → Bool}
    (others : ∀ x ∈ s.cr.records, x.receipt ∈ s.cr.lists[p] → x.state ≠ .held ∨ test x = false) :
    s.firstHeld p test = none := by
  refine Option.eq_none_iff_forall_ne_some.mpr fun r found => ?_
  obtain ⟨mem, listed, held⟩ := mem_of_firstHeld found
  have passes := List.find?_some found
  obtain other | fails := others r mem listed
  · exact other held
  · simp [fails] at passes

end Sys2Proof.ReleaseProofs
end

section
/-! PROOF. The release permit and the session: WNDW, the time-lock contact, CRED, PCLS, the session's timers, and what leaving
OPEN does (R86, R137, R139 to R142). -/

namespace Sys2Proof.ReleaseProofs

open Sys2Proof.Machine Sys2Proof.Safety Sys2Proof.CustodyProofs Sys2Proof.CarouselProofs Sys2Proof.SettingsProofs

/-! ## The end of a session -/

/-- The state that leaves OPEN, before the arbiter serves on: the session closed, the release requests withdrawn, the open
pocket ended, an unopened hatch locked (R142). -/
def sessionLeft (s : State) : State :=
  { s with
    pcc := { s.pcc with queue := withdraw s.pcc.queue }
    rc := { hatchEnded s.rc with session := .closed } }

theorem leaveOpen_eq (s : State) : s.leaveOpen = (sessionLeft s).serve := by
  unfold State.leaveOpen
  dsimp only
  rw [lockUnopened_endOpenPocket]
  rfl

/-- No release request of the queue can still unlock the hatch (R86). -/
def releasesWithdrawn (l : List PosRequest) : Prop :=
  ∀ q ∈ l, q.source = .release → q.withdrawn = true ∧ q.stage ≠ .waiting

theorem releasesWithdrawn_withdraw (l : List PosRequest) : releasesWithdrawn (withdraw l) := by
  intro q hq
  obtain ⟨x, hx, rfl⟩ := List.mem_map.mp hq
  obtain ⟨-, stays⟩ := List.mem_filter.mp hx
  split
  next source => exact fun _ => ⟨rfl, by simpa [waits, source] using stays⟩
  next other => exact fun source => absurd source other

/-- What is in the queue once the next request of a source is marked (R84). -/
theorem mem_markServing {src : Source} {l : List PosRequest} {q : PosRequest} (h : q ∈ markServing src l) :
    q ∈ l ∨ ∃ r ∈ l, r.source = src ∧ r.stage = .waiting ∧ q = { r with stage := .serving } := by
  induction l with
  | nil => simp [markServing] at h
  | cons r rest ih =>
    unfold markServing at h
    split at h
    next next =>
      obtain ⟨source, waiting⟩ := waits_iff.mp next
      obtain rfl | h := List.mem_cons.mp h
      · exact .inr ⟨r, by simp, source, waiting, rfl⟩
      · exact .inl (List.mem_cons_of_mem r h)
    next =>
      obtain rfl | h := List.mem_cons.mp h
      · exact .inl (by simp)
      · refine (ih h).imp (List.mem_cons_of_mem r) fun ⟨x, hx, marked⟩ => ⟨x, List.mem_cons_of_mem r hx, marked⟩

theorem releasesWithdrawn_markServing {l : List PosRequest} (h : releasesWithdrawn l) (src : Source) :
    releasesWithdrawn (markServing src l) := by
  intro q hq source
  obtain mem | ⟨r, mem, -, waiting, rfl⟩ := mem_markServing hq
  · exact h q mem source
  · exact absurd waiting (h r mem source).2

/-- With the release requests withdrawn no arrival unlocks the hatch (R86). -/
theorem arrive_of_releasesWithdrawn {s : State} (h : releasesWithdrawn s.pcc.queue) :
    releasesWithdrawn s.arrive.pcc.queue ∧ s.arrive.rc = s.rc := by
  unfold State.arrive
  split
  next => exact ⟨h, rfl⟩
  next r served =>
    cases source : r.source with
    | intake =>
      refine ⟨fun q hq => ?_, rfl⟩
      obtain ⟨x, hx, rfl⟩ := List.mem_map.mp hq
      split
      next => exact fun source => ⟨(h x hx source).1, nofun⟩
      next => exact h x hx
    | release =>
      obtain ⟨withdrawn, -⟩ := h r (List.mem_of_find?_eq_some served) source
      dsimp only
      rw [if_pos withdrawn]
      exact ⟨fun q hq => h q (List.mem_of_mem_filter hq), rfl⟩

/-- The arbiter then serves without a hand on the hatch. -/
theorem serve_of_releasesWithdrawn {s : State} (h : releasesWithdrawn s.pcc.queue) :
    releasesWithdrawn s.serve.pcc.queue ∧ s.serve.rc = s.rc := by
  unfold State.serve
  split
  next =>
    split
    next => exact ⟨h, rfl⟩
    next src _ =>
      have marked := releasesWithdrawn_markServing h src
      dsimp only
      split
      next => exact ⟨marked, rfl⟩
      next =>
        split
        · exact arrive_of_releasesWithdrawn (s := s.setQueue _) marked
        · rw [State.startMove_pcc_queue, State.startMove_rc]
          exact ⟨marked, rfl⟩
  next => exact ⟨h, rfl⟩

/-- What leaving OPEN makes of the queue and of the release controller (R86, R142). -/
theorem leaveOpen_spec (s : State) : releasesWithdrawn s.leaveOpen.pcc.queue ∧
    s.leaveOpen.rc = { hatchEnded s.rc with session := .closed } :=
  leaveOpen_eq s ▸ serve_of_releasesWithdrawn (s := sessionLeft s) (releasesWithdrawn_withdraw s.pcc.queue)

/-- With nothing queued and no hatch to lock, leaving OPEN closes the session and the open pocket (R142). -/
theorem leaveOpen_of_quiet {s : State} (empty : s.pcc.queue = []) (hatch : s.rc.hatch ≠ .unlocked) :
    s.leaveOpen = { s with rc := { s.rc with session := .closed, openPocket := none, guardMark := none } } := by
  rw [leaveOpen_eq, serve_of_empty (by simp [sessionLeft, empty, withdraw])]
  have queue : withdraw s.pcc.queue = s.pcc.queue := by rw [empty]; rfl
  simp only [sessionLeft, queue, hatchEnded, if_neg hatch]

theorem closeSession_of_closed {s : State} (h : s.rc.session = .closed) : s.closeSession = s := by
  simp only [State.closeSession, h]

theorem closeSession_of_pairing {s : State} {first left : Nat} (h : s.rc.session = .pairing first left) :
    s.closeSession = { s with rc := { s.rc with session := .closed } } := by
  simp only [State.closeSession, h]
  rfl

theorem closeSession_of_opened {s : State} {left : Nat} (h : s.rc.session = .opened left) :
    s.closeSession = s.leaveOpen := by
  simp only [State.closeSession, h]

/-! ## The permit -/

/-- Where the permit falls the session ends as its state has it (R137). -/
theorem afterPermit_eq {s t : State} (same : t.rc.session = s.rc.session) : s.afterPermit t =
    if s.permit && !t.permit then
      match s.rc.session with
      | .closed => t
      | .pairing _ _ => { t with rc := { t.rc with session := .closed } }
      | .opened _ => t.leaveOpen
    else t := by
  unfold State.afterPermit
  split
  · cases session : s.rc.session with
    | closed => exact closeSession_of_closed (same.trans session)
    | pairing => exact closeSession_of_pairing (same.trans session)
    | opened => exact closeSession_of_opened (same.trans session)
  · rfl

/-- Settles O27: the session closes where the permit, worked out before and after, falls. -/
theorem permitRisesAndFalls : Obligations.PermitRisesAndFalls := by
  intro s permit after
  have falls (t : State) (same : t.rc.session = s.rc.session) : s.afterPermit t = after t t.permit := afterPermit_eq same
  refine ⟨fun field idle big => ?_, fun field idle small => ?_, fun closed running => ?_⟩
  · have unread : flagOf field = none := Option.eq_none_iff_forall_ne_some.mpr fun x read => by
      obtain rfl := flagOf_eq_some_iff.mp read
      cases x <;> simp [yesNo] at big
    simp only [exec, execWndw, takeRequest_branch idle, unread]
    rfl
  · intro set present
    have written : field = yesNo set := by
      obtain rfl | rfl : field = 0#8 ∨ field = 1#8 := by bv_omega
      · rfl
      · rfl
    simp only [exec, execWndw, takeRequest_branch idle, flagOf_eq_some_iff.mpr written, ok,
      falls (s.setRc { s.rc with wndw := set }) rfl, ← written]
    rfl
  · simp only [exec, execTimeLockContact, takeEvent_running running,
      falls (s.setPins { s.pins with timeLockClosed := closed }) rfl]
    rfl

/-! ## CRED -/

theorem credential_of_out {s : State} {id : BitVec 24} (out : id.toNat = 0 ∨ 999999 < id.toNat) :
    s.credential id = refuse s .badValue := by
  simp only [State.credential, staffIdOf_of_out out]

section Credential

variable {s : State} {id : BitVec 24} (inside : ¬ (id.toNat = 0 ∨ 999999 < id.toNat))

include inside

/-- The rows of R139. -/
theorem credential_of_closed (closed : s.rc.session = .closed) : s.credential id =
    if !s.permit then refuse s .badState
    else if (s.role id).isNone then refuse s .deny
    else ok (s.setSession (.pairing id.toNat s.rc.pairingInterval)) [2#8] := by
  simp only [State.credential, staffIdOf_of_in inside, closed]
  rfl

/-- The rows of R140. -/
theorem credential_of_pairing {first : BitVec 24} {left : Nat} (pairing : s.rc.session = .pairing first.toNat left) :
    s.credential id =
      if (s.role id).isNone then refuse s .deny
      else if id = first then refuse s .same
      else if !s.isSupervisor id && !s.isSupervisor first then refuse s .deny
      else ok (s.setSession (.opened s.rc.idleInterval)) [3#8] := by
  simp only [State.credential, staffIdOf_of_in inside, pairing, BitVec.ofNat_toNat, BitVec.setWidth_eq, BitVec.toNat_inj]
  rfl

/-- The row of R141. -/
theorem credential_of_opened {left : Nat} (opened : s.rc.session = .opened left) :
    s.credential id = refuse s .badState := by
  simp only [State.credential, staffIdOf_of_in inside, opened]

end Credential

/-- Settles O28: an id out of range is refused in every session, and one in range goes by the rows of its session. -/
theorem credentialsOpenTheSession : Obligations.CredentialsOpenTheSession := by
  intro id s idle with_ out answers
  have credits {t : State} {a : Answer} (h : (idleRestarted s).credential id = (t, a)) : answers t a.word a.data :=
    takePanel_next (r := .cred) (owner := fun s => s.credential id) idle h
  have named {role : Role} (h : hasRole s id role) : ¬ (s.role id).isNone := by simp [role_of_hasRole h]
  have unnamed (h : notRostered s id) : (s.role id).isNone = true := by simp [role_of_notRostered h]
  refine ⟨fun closed => ?_, fun first left pairing => ?_, fun left opened => ?_⟩
  · rw [idleRestarted_of_not_opened (by simp [closed])] at credits
    have rows (inside : ¬ out) := credential_of_closed inside closed
    refine ⟨fun outside => credits (credential_of_out outside), fun inside absent => ?_, fun inside present stranger => ?_,
      fun role inside present member => ?_⟩
    · exact credits ((rows inside).trans (if_pos (by simp [absent])))
    · exact credits ((rows inside).trans ((if_neg (by simp [present])).trans (if_pos (unnamed stranger))))
    · exact credits ((rows inside).trans ((if_neg (by simp [present])).trans (if_neg (named member))))
  · rw [idleRestarted_of_not_opened (by simp [pairing])] at credits
    have rows (inside : ¬ out) := credential_of_pairing inside pairing
    refine ⟨fun outside => credits (credential_of_out outside), fun inside stranger => ?_, fun role inside member same => ?_,
      fun inside teller other lower => ?_, fun role inside member other higher => ?_⟩
    · exact credits ((rows inside).trans (if_pos (unnamed stranger)))
    · exact credits ((rows inside).trans ((if_neg (named member)).trans (if_pos same)))
    · have noSupervisor : s.role first ≠ some .supervisor := by
        obtain teller | stranger := lower
        · simp [role_of_hasRole teller]
        · simp [role_of_notRostered stranger]
      exact credits ((rows inside).trans ((if_neg (named teller)).trans
        ((if_neg other).trans (if_pos (by simp [State.isSupervisor, role_of_hasRole teller, noSupervisor])))))
    · have supervised : s.isSupervisor id = true ∨ s.isSupervisor first = true :=
        higher.imp (fun e : role = .supervisor => isSupervisor_iff.mpr (e ▸ member)) isSupervisor_iff.mpr
      exact credits ((rows inside).trans ((if_neg (named member)).trans
        ((if_neg other).trans (if_neg (by obtain h | h := supervised <;> simp [h])))))
  · rw [idleRestarted_of_opened opened] at credits
    exact ⟨fun outside => credits (credential_of_out outside), fun inside => credits (credential_of_opened inside rfl)⟩

/-! ## The session's ends -/

/-- The pairing timer closes PAIRING, and runs in no other state (R140). -/
theorem exec_pairingExpiry {s : State} (running : s.resetHeld = false) :
    (∀ first left, s.rc.session = .pairing first left →
      exec .pairingExpiry s = .next { s with rc := { s.rc with session := .closed } }) ∧
    ((∀ first left, s.rc.session ≠ .pairing first left) → exec .pairingExpiry s = .next s) := by
  simp only [exec, execPairingExpiry, takeEvent_running running]
  refine ⟨fun first left pairing => by rw [pairing]; rfl, fun other => ?_⟩
  split
  next first left pairing => exact absurd pairing (other first left)
  all_goals rfl

/-- The idle timer leaves OPEN, and runs in no other state (R141). -/
theorem exec_idleExpiry {s : State} (running : s.resetHeld = false) :
    (∀ left, s.rc.session = .opened left → exec .idleExpiry s = .next s.leaveOpen) ∧
    ((∀ left, s.rc.session ≠ .opened left) → exec .idleExpiry s = .next s) := by
  simp only [exec, execIdleExpiry, takeEvent_running running]
  refine ⟨fun left opened => by rw [opened], fun other => ?_⟩
  split
  next left opened => exact absurd opened (other left)
  all_goals rfl

/-- PCLS is refused in CLOSED and closes any other session (R142). -/
theorem exec_pcls {s : State} (idle : panelIdle s) :
    (s.rc.session = .closed → exec .pcls s = .next (panelReply s .pcls .badState [])) ∧
    (s.rc.session ≠ .closed → exec .pcls s = .next (panelReply (idleRestarted s).closeSession .pcls .ok [])) := by
  simp only [exec, execPcls, takePanel_panel idle, restartIdle_eq_idleRestarted]
  refine ⟨fun closed => ?_, fun standing => ?_⟩
  · rw [idleRestarted_of_not_opened (by simp [closed]), if_pos closed]
    rfl
  · have still : (idleRestarted s).rc.session ≠ .closed := by
      cases session : s.rc.session with
      | closed => exact absurd session standing
      | pairing _ _ | opened _ => simp [idleRestarted, session]
    rw [if_neg still]
    rfl

/-- Settles O29: each end of the session by its state, and what leaving OPEN writes read off part by part. -/
theorem sessionCloses : Obligations.SessionCloses := by
  refine ⟨fun s running => ?_,
    fun s idle => ⟨(exec_pcls idle).1, fun first left pairing => ?_, fun left opened => ?_⟩, fun s => ?_⟩
  · obtain ⟨paired, unpaired⟩ := exec_pairingExpiry running
    obtain ⟨left, stayed⟩ := exec_idleExpiry running
    exact ⟨fun first left pairing => ⟨paired first left pairing, stayed (by simp [pairing])⟩,
      fun closed => ⟨unpaired (by simp [closed]), stayed (by simp [closed])⟩,
      fun time opened => ⟨unpaired (by simp [opened]), left time opened⟩⟩
  · refine ((exec_pcls idle).2 (by simp [pairing])).trans ?_
    rw [idleRestarted_of_not_opened (by simp [pairing]), closeSession_of_pairing pairing]
  · refine ((exec_pcls idle).2 (by simp [opened])).trans ?_
    rw [closeSession_of_opened (left := s.rc.idleInterval) (by simp [idleRestarted, opened])]
  · intro t
    obtain ⟨requests, rc⟩ : releasesWithdrawn t.pcc.queue ∧ t.rc = { hatchEnded s.rc with session := .closed } :=
      leaveOpen_spec s
    refine ⟨by rw [rc], by rw [rc]; rfl, by rw [rc]; rfl, fun opened => ?_, fun unopened => ?_, fun unlocked => ?_, requests,
      State.leaveOpen_cr s, State.leaveOpen_trt s, State.leaveOpen_wau s, State.leaveOpen_ls s, State.leaveOpen_ss s,
      State.leaveOpen_pins s, State.leaveOpen_pcc_pockets s, State.leaveOpen_pcc_hold s, State.leaveOpen_pcc_position s,
      State.leaveOpen_rc_roster s, State.leaveOpen_rc_wndw s, State.leaveOpen_rc_policy s,
      State.leaveOpen_rc_handoverTimers s, State.leaveOpen_rc_reader s, State.leaveOpen_rc_lamp s,
      State.leaveOpen_intake_readings s, leaveOpen_of_quiet⟩
    · simp [rc, hatchEnded, opened]
    · rw [rc]
      cases hatch : s.rc.hatch with
      | opened => exact absurd hatch unopened
      | locked | unlocked => simp [hatchEnded, hatch]
    · simp [rc, hatchEnded, unlocked]

end Sys2Proof.ReleaseProofs
end

section
/-! PROOF. The drum when a release request enters, and PRTV (R83 to R85, R89, R143). -/

namespace Sys2Proof.ReleaseProofs

open Sys2Proof.Machine Sys2Proof.Safety Sys2Proof.CustodyProofs Sys2Proof.CarouselProofs

/-! ## A pre-position move cut short -/

/-- Without the weak option, or without a pre-position move, an entry cuts nothing (R89). -/
theorem cutPreMove_of_none {s : State} (h : s.pcc.weakOption = false ∨
    ∀ m, s.pcc.drum = .settle m ∨ (∃ left, s.pcc.drum = .moving m left) → m.prePosition = false) : s.cutPreMove = s := by
  unfold State.cutPreMove
  split
  next on =>
    have wanted := h.resolve_left (by simp [on])
    split
    next m settle => rw [if_neg (by simp [wanted m (.inl settle)])]
    next m left moving =>
      split
      next => rw [if_neg (by simp [wanted m (.inr ⟨left, moving⟩)])]
      next => rfl
    all_goals rfl
  next => rfl

/-- A settle before a pre-position move is abandoned (R89). -/
theorem cutPreMove_of_settle {s : State} {m : Move} (settle : s.pcc.drum = .settle m) (pre : m.prePosition = true)
    (on : s.pcc.weakOption = true) : s.cutPreMove = s.setPcc { s.pcc with drum := .idle } := by
  simp only [State.cutPreMove, on, settle, pre, if_true]

/-- A turning drum stops at the end of the step under way (R89). -/
theorem cutPreMove_of_moving {s : State} {m : Move} {left : Nat} {k : Fin 21} (moving : s.pcc.drum = .moving m left)
    (pre : m.prePosition = true) (on : s.pcc.weakOption = true) (position : s.pcc.position = some k) :
    s.cutPreMove = s.setPcc { s.pcc with drum := .moving { m with target := stepFrom m.dir k } left } := by
  simp only [State.cutPreMove, on, moving, position, pre, if_true]

/-! ## PRTV -/

theorem sessionOpen_iff {s : State} : s.sessionOpen = true ↔ ∃ left, s.rc.session = .opened left := by
  unfold State.sessionOpen
  cases s.rc.session <;> simp

/-- The idle timer does not open or close a session. -/
theorem idleRestarted_opened_iff {s : State} :
    (∃ left, (idleRestarted s).rc.session = .opened left) ↔ ∃ left, s.rc.session = .opened left := by
  unfold idleRestarted
  cases s.rc.session <;> simp

/-- The state with a new release request for pocket q in the queue and the drum as given (R83, R141). -/
def requested (s : State) (q : Fin 21) (drum : Drum) : State :=
  { idleRestarted s with pcc := { s.pcc with queue := s.pcc.queue ++ [releaseRequest q], drum } }

theorem enqueue_eq (s : State) (q : Fin 21) : (idleRestarted s).enqueue (releaseRequest q) =
    (requested s q s.pcc.drum).cutPreMove.serve := rfl

/-- Away from IDLE the request waits, where it cuts no pre-position move short (R84, R89). -/
theorem requested_waits {s : State} {q : Fin 21} {drum : Drum} (away : drum ≠ .idle) (h : s.pcc.weakOption = false ∨
    ∀ m, drum = .settle m ∨ (∃ left, drum = .moving m left) → m.prePosition = false) :
    (requested s q drum).cutPreMove.serve = requested s q drum := by
  rw [cutPreMove_of_none (s := requested s q drum) h]
  exact serve_of_nothing (.inl fun ready => away ready.1)

/-- A turning pre-position move that it cuts short ends one step on (R89). -/
theorem requested_stops {s : State} {q k : Fin 21} {m : Move} {left : Nat} (pre : m.prePosition = true)
    (on : s.pcc.weakOption = true) (position : s.pcc.position = some k) :
    (requested s q (.moving m left)).cutPreMove.serve =
      requested s q (.moving { m with target := stepFrom m.dir k } left) := by
  rw [cutPreMove_of_moving (s := requested s q (.moving m left)) rfl pre on position]
  exact serve_of_nothing (.inl fun ready => by cases ready.1)

section Prtv

variable {s : State} (idle : panelIdle s) {pocket : BitVec 8}

include idle

theorem exec_prtv_of_noPocket (high : 20 < pocket.toNat) :
    exec (.prtv pocket) s = .next (panelReply (idleRestarted s) .prtv .badValue []) := by
  simp only [exec, execPrtv, takePanel_panel idle, restartIdle_eq_idleRestarted, pocketOf_eq_none high]
  rfl

/-- The rows of R143 for a pocket in range. -/
theorem exec_prtv {q : Fin 21} (number : pocket.toNat = q.val) :
    (¬ (∃ left, s.rc.session = .opened left) → exec (.prtv pocket) s = .next (panelReply s .prtv .badState [])) ∧
    ((∃ left, s.rc.session = .opened left) →
      (s.pcc.drum = .fault → exec (.prtv pocket) s = .next (panelReply (idleRestarted s) .prtv .badState [])) ∧
      (s.pcc.drum ≠ .fault → 3 ≤ s.releaseCount →
        exec (.prtv pocket) s = .next (panelReply (idleRestarted s) .prtv .busy [])) ∧
      (s.pcc.drum ≠ .fault → s.releaseCount < 3 →
        exec (.prtv pocket) s = .next (panelReply ((requested s q s.pcc.drum).cutPreMove.serve) .prtv .ok
          [byte (s.releaseCount + 1)]))) := by
  simp only [exec, execPrtv, takePanel_panel idle, restartIdle_eq_idleRestarted, pocketOf_of_toNat number]
  refine ⟨fun other => ?_, fun isOpen => ?_⟩
  · have closed : (idleRestarted s).sessionOpen = false := by
      rwa [← Bool.not_eq_true, sessionOpen_iff, idleRestarted_opened_iff]
    rw [if_pos (by simp [closed]), idleRestarted_of_not_opened other]
    rfl
  have opened : (idleRestarted s).sessionOpen = true := sessionOpen_iff.mpr (idleRestarted_opened_iff.mpr isOpen)
  rw [if_neg (by simp [opened])]
  refine ⟨fun fault => ?_, fun sound full => ?_, fun sound room => ?_⟩
  · rw [if_pos (by exact fault)]
    rfl
  · rw [if_neg (by exact sound), if_pos (by exact full)]
    rfl
  · rw [if_neg (by exact sound), if_neg (by exact Nat.not_le.mpr room), enqueue_eq]
    rfl

end Prtv

/-- Settles O30: the refusals in their order, and the new request by the state of the drum that it finds. -/
theorem prtvPlacesARequest : Obligations.PrtvPlacesARequest := by
  intro pocket s idle t isOpen standing answers
  have number (inside : pocket.toNat ≤ 20) : pocket.toNat = (Fin.ofNat 21 pocket.toNat).val :=
    (Nat.mod_eq_of_lt (by omega)).symm
  refine ⟨exec_prtv_of_noPocket idle, fun inside other => (exec_prtv idle (number inside)).1 other,
    fun inside opened => ((exec_prtv idle (number inside)).2 opened).1,
    fun inside opened => ((exec_prtv idle (number inside)).2 opened).2.1, fun q number opened sound room => ?_⟩
  intro r goes data
  have placed {drum : Drum} (e : s.pcc.drum = drum) {x : State} (h : (requested s q drum).cutPreMove.serve = x) :
      answers x .ok data := by
    subst e
    exact h ▸ ((exec_prtv idle number).2 opened).2.2 sound room
  refine ⟨fun drum => ?_, fun x drum => ?_, fun m drum => ⟨fun pre on => ?_, fun whole => ?_⟩, fun m left drum =>
    ⟨fun k pre on position => ?_, fun whole => ?_⟩⟩
  · exact placed drum (congrArg State.serve (cutPreMove_of_none (s := requested s q .idle) (.inr (by simp [requested]))))
  · exact placed drum (requested_waits (drum := .homing x) nofun (.inr (by simp)))
  · exact placed drum (congrArg State.serve (cutPreMove_of_settle (s := requested s q (.settle m)) rfl pre on))
  · exact placed drum (requested_waits (drum := .settle m) nofun (whole.symm.imp_right fun wanted => by simp [wanted]))
  · intro next
    have target : stepFrom m.dir k = next := by
      rw [stepFrom_eq]
      cases dir : m.dir <;> simp only [next, dir]
    exact target ▸ placed drum (requested_stops pre on position)
  · exact placed drum (requested_waits (drum := .moving m left) nofun
      (whole.symm.imp_right fun wanted => by simp [wanted]))

end Sys2Proof.ReleaseProofs
end

section
/-! PROOF. The hatch: its sensor, its timer, and its lamps (R87, R93, R144 to R146). -/

namespace Sys2Proof.ReleaseProofs

open Sys2Proof.Machine Sys2Proof.Safety Sys2Proof.CustodyProofs Sys2Proof.CarouselProofs

/-! ## The interlock made secure -/

theorem interlockSecured_of_other {s : State} (other : s.pcc.drum ≠ .homing none) : s.interlockSecured = s.serve := by
  unfold State.interlockSecured
  split
  next unbegun => exact absurd unbegun other
  all_goals rfl

/-- The search of a restart begins, or ends at once where the mark is read (R93). -/
theorem interlockSecured_of_unbegun {s : State} (unbegun : s.pcc.drum = .homing none) :
    s.interlockSecured = if s.pins.refMark then s.homed else s.setPcc { s.pcc with drum := .homing (some
      { steps := 0, stepMs := s.pcc.stepInterval, timerMs := 43 * s.pcc.stepInterval }) } := by
  simp only [State.interlockSecured, unbegun]
  rfl

/-! ## The sensor -/

/-- The state with the hatch-shut sensor reading shut. -/
def shutRead (s : State) : State := { s with pins := { s.pins with hatchShut := true } }

/-- The hatch locked: the open pocket ends, and the unopened timer stops (R145). -/
def hatchRelocked (s : State) : State :=
  { s with rc := { s.rc with hatch := .locked, openPocket := none, guardMark := none, unopenedTimer := none } }

/-- The sensor reads open with the hatch not locked (R144). -/
theorem exec_hatchOpens {s : State} (running : s.resetHeld = false) :
    (s.rc.hatch = .unlocked → exec (.hatchShutSensor false) s =
      .next { forced s with rc := { s.rc with hatch := .opened, unopenedTimer := none } }) ∧
    (s.rc.hatch = .opened → exec (.hatchShutSensor false) s = .next (forced s)) := by
  have opens : exec (.hatchShutSensor false) s = .next s.hatchOpens := exec_event running rfl rfl
  rw [opens]
  refine ⟨fun hatch => ?_, fun hatch => ?_⟩ <;>
  · simp only [State.hatchOpens, State.setPins_rc, hatch]
    rfl

/-- The sensor reads shut (R87, R145). -/
theorem exec_hatchShuts {s : State} (running : s.resetHeld = false) :
    (s.rc.hatch = .unlocked → exec (.hatchShutSensor true) s = .next (shutRead s)) ∧
    (s.rc.hatch = .opened → exec (.hatchShutSensor true) s = .next (hatchRelocked (shutRead s)).interlockSecured) ∧
    (s.rc.hatch = .locked → exec (.hatchShutSensor true) s = .next (shutRead s).interlockSecured) := by
  have shuts : exec (.hatchShutSensor true) s = .next s.hatchShuts := exec_event running rfl rfl
  rw [shuts]
  refine ⟨fun hatch => ?_, fun hatch => ?_, fun hatch => ?_⟩ <;>
  · simp only [State.hatchShuts, State.setPins_rc, hatch]
    rfl

theorem exec_unopenedTimerExpiry {s : State} (running : s.resetHeld = false) :
    exec .unopenedTimerExpiry s = .next (if s.rc.unopenedTimer.isSome then s.lockUnopened.serve else s) := by
  simp only [exec, execUnopenedTimerExpiry, takeEvent_running running]

/-- Settles O37: the sensor and the timer by the state of the hatch, and the search that a shut hatch lets begin. -/
theorem hatchOpensAndShuts : Obligations.HatchOpensAndShuts := by
  intro s running locked reads
  obtain ⟨opens, stays⟩ := exec_hatchOpens running
  obtain ⟨unlocked, opened, shut⟩ := exec_hatchShuts running
  refine ⟨opens, unlocked, stays, fun hatch other => ?_, fun hatch other => ?_, fun x unbegun hx => ?_, fun hatch timer => ?_,
    fun stopped => ?_, ?_⟩
  · exact (opened hatch).trans (congrArg _ (interlockSecured_of_other other))
  · exact (shut hatch).trans (congrArg _ (interlockSecured_of_other other))
  · have secured : exec (.hatchShutSensor true) s = .next x.interlockSecured := by
      obtain ⟨hatch, rfl⟩ | ⟨hatch, rfl⟩ := hx
      · exact shut hatch
      · exact opened hatch
    have pcc : x.pcc = s.pcc := by obtain ⟨-, rfl⟩ | ⟨-, rfl⟩ := hx <;> rfl
    have mark : x.pins.refMark = s.pins.refMark := by obtain ⟨-, rfl⟩ | ⟨-, rfl⟩ := hx <;> rfl
    rw [secured, interlockSecured_of_unbegun (pcc ▸ unbegun), mark, ← pcc]
    refine ⟨fun away => ?_, fun read => ?_⟩
    · rw [if_neg (by simp [away])]
      rfl
    · rw [if_pos read]
      rfl
  · rw [exec_unopenedTimerExpiry running, if_pos timer, State.lockUnopened, if_pos hatch]
    rfl
  · rw [exec_unopenedTimerExpiry running, if_neg (by simp [stopped])]
  · simp only [exec, execLampExpiry, takeEvent_running running]
    rfl

end Sys2Proof.ReleaseProofs
end

section
/-! PROOF. Bags at the hatch: what a read does, NOTG, and the scans that stage, return or refuse (R10, R11, R17, R141, R146 to
R150). -/

namespace Sys2Proof.ReleaseProofs

open Sys2Proof.Machine Sys2Proof.Safety Sys2Proof.CustodyProofs Sys2Proof.CarouselProofs

/-! ## Reads -/

/-- The state with the hatch reader's holding slot emptied (R101). -/
def scanTaken (s : State) : State := { s with rc := { s.rc with reader := { s.rc.reader with holding := none } } }

theorem isTag_iff {t : Tag} : isTag t = true ↔ t ≠ 0#32 ∧ t ≠ 0xFFFFFFFF#32 := by
  simp [isTag]

section Reads

variable {s : State} (running : s.resetHeld = false) (atMs : Nat)

include running

theorem exec_hatchScan_of_none (empty : s.rc.reader.holding = none) : exec (.hatchScan atMs) s = .next s := by
  simp only [exec, execHatchScan, takeEvent_running running, empty]

theorem exec_hatchScan_of_some {x : TagRead} (read : s.rc.reader.holding = some x) :
    exec (.hatchScan atMs) s = .next ((scanTaken s).hatchRead x atMs) := by
  simp only [exec, execHatchScan, takeEvent_running running, read]
  rfl

/-- A good read with no pocket open is refused where it is a tag, and is nothing otherwise (R146). -/
theorem exec_hatchScan_of_closed {t : Tag} (read : s.rc.reader.holding = some (.good t)) (closed : s.rc.openPocket = none) :
    exec (.hatchScan atMs) s = .next (if isTag t then lit (scanTaken s) .refuse else scanTaken s) := by
  have pocket : (scanTaken s).rc.openPocket = none := closed
  rw [exec_hatchScan_of_some running atMs read]
  simp only [State.hatchRead, pocket]
  rfl

/-- A good read with a pocket open restarts the idle timer, and is a scan where it is a tag (R141, R146). -/
theorem exec_hatchScan_of_open {t : Tag} {q : Fin 21} (read : s.rc.reader.holding = some (.good t))
    (opened : s.rc.openPocket = some q) : exec (.hatchScan atMs) s =
      .next (if isTag t then (idleRestarted (scanTaken s)).scan t atMs q else idleRestarted (scanTaken s)) := by
  have pocket : (scanTaken s).rc.openPocket = some q := opened
  rw [exec_hatchScan_of_some running atMs read]
  simp only [State.hatchRead, pocket, restartIdle_eq_idleRestarted]

end Reads

/-! ## Scans -/

/-- The repeat guard (R146). -/
theorem guarded_iff {s : State} {t : Tag} {atMs : Nat} :
    s.guarded t atMs = true ↔ ∃ g, s.rc.guardMark = some g ∧ g.tag = t ∧ atMs < g.atMs + 2000 := by
  unfold State.guarded
  cases s.rc.guardMark with
  | none => simp
  | some g =>
    simp only [Bool.and_eq_true, beq_iff_eq, decide_eq_true_eq, Option.some.injEq, exists_eq_left']
    rfl

theorem guarded_of_late {s : State} {t : Tag} {atMs : Nat}
    (late : ∀ g, s.rc.guardMark = some g → g.tag = t → g.atMs + 2000 ≤ atMs) : s.guarded t atMs = false :=
  Bool.eq_false_iff.mpr fun guarded => by
    obtain ⟨g, mark, same, soon⟩ := guarded_iff.mp guarded
    exact absurd (late g mark same) (Nat.not_le.mpr soon)

/-- A staging from pocket q (R147), the chute tested after one from pocket 0 (R96). -/
theorem scan_of_held {s : State} {t : Tag} {atMs : Nat} {q : Fin 21} {r : Record} (fresh : s.guarded t atMs = false)
    (first : s.firstHeld q (fun r => r.tag == some t) = some r) : s.scan t atMs q =
      let x := staged s r q (countRequired s.rc.policy r)
      let y : State := lit { x with rc := { x.rc with guardMark := some { tag := t, atMs } } } .accept
      if q = 0 then y.retest else y := by
  simp only [State.scan, fresh, first, ← stage_eq_staged]
  rfl

theorem scan_of_notHeld {s : State} {t : Tag} {atMs : Nat} {q : Fin 21} (fresh : s.guarded t atMs = false)
    (first : s.firstHeld q (fun r => r.tag == some t) = none) : s.scan t atMs q = s.scanClaimant t q := by
  simp only [State.scan, fresh, first]
  rfl

/-- The fit test of R73 for a bag with a size class. -/
theorem fits_some_iff (c : Carousel) (q : Fin 21) (size : Nat) :
    c.fits q (some size) = true ↔ c.pockets[q].capacity ≠ 0 ∧ size ≤ c.freeUnits q := by
  have service : c.classOf q = .outOfService ↔ c.pockets[q].capacity = 0 := by
    unfold Carousel.classOf
    (repeat' split) <;> simp_all
  simp only [Carousel.fits, Bool.and_eq_true, bne_iff_ne, ne_eq, service, decide_eq_true_eq]

section Claimants

variable {s : State} {t : Tag} {q : Fin 21} {r : Record}

theorem scanClaimant_of_unclaimed (free : unclaimed s t) : s.scanClaimant t q = lit s .refuse := by
  simp only [State.scanClaimant, claimant_of_unclaimed free]
  rfl

variable (claim : claims s t r)

include claim

/-- A record out of the module is returned where it fits (R148). -/
theorem scanClaimant_of_out (out : r.state = .staged ∨ r.state = .overdue) : s.scanClaimant t q =
    if s.pcc.fits q r.size then lit (returned s r q) .accept else lit s .refuse := by
  simp only [State.scanClaimant, claimant_of_claims claim, giveBack_eq_returned]
  obtain state | state := out <;> simp only [state] <;> rfl

theorem scanClaimant_of_held (held : r.state = .held) :
    s.scanClaimant t q = lit (raised s .wrongPocketScan) .refuse := by
  simp only [State.scanClaimant, claimant_of_claims claim, held, raise_eq_raised]
  rfl

theorem scanClaimant_of_other (other : r.state = .grace ∨ r.state = .advised ∨ r.state = .missing ∨ r.state = .intake) :
    s.scanClaimant t q = lit s .refuse := by
  simp only [State.scanClaimant, claimant_of_claims claim]
  obtain state | state | state | state := other <;> simp only [state] <;> rfl

end Claimants

/-- Settles O32: the guard lets the scan pass, and the earliest HELD record of the tag is the one staged. -/
theorem hatchScanStages : Obligations.HatchScanStages := by
  intro atMs tag q r before after s running read low high opened unguarded list only held tagged earlier taken x y
  have fresh : (idleRestarted taken).guarded tag atMs = false := guarded_of_late (s := idleRestarted taken) unguarded
  have first : (idleRestarted taken).firstHeld q (fun r => r.tag == some tag) = some r :=
    firstHeld_eq_some (s := idleRestarted taken) only list held (by simp [tagged]) fun x hx mem =>
      (earlier x hx mem).imp_right beq_eq_false_iff_ne.mpr
  rw [exec_hatchScan_of_open running atMs read opened, if_pos (isTag_iff.mpr ⟨low, high⟩)]
  exact congrArg Host.Outcome.next (scan_of_held fresh first)

/-- Settles O33: a read that is no scan by the open pocket, and a scan that finds no HELD record by the claiming one. -/
theorem hatchReadsOtherwise : Obligations.HatchReadsOtherwise := by
  have noTag {t : Tag} (h : t = 0#32 ∨ t = 0xFFFFFFFF#32) : ¬ isTag t = true := fun tag => by
    obtain ⟨low, high⟩ := isTag_iff.mp tag
    exact h.elim low high
  refine ⟨fun atMs s running => ?_, fun atMs tag q s running read low high opened unguarded others => ?_⟩
  · intro taken
    refine ⟨exec_hatchScan_of_none running atMs, fun bad => ?_, fun t read none closed => ?_, fun t q read none opened => ?_,
      fun t read low high closed => ?_, fun t q g read low high opened mark same soon => ?_⟩
    · exact exec_hatchScan_of_some running atMs bad
    · exact (exec_hatchScan_of_closed running atMs read closed).trans (congrArg _ (if_neg (noTag none)))
    · exact (exec_hatchScan_of_open running atMs read opened).trans (congrArg _ (if_neg (noTag none)))
    · exact (exec_hatchScan_of_closed running atMs read closed).trans (congrArg _ (if_pos (isTag_iff.mpr ⟨low, high⟩)))
    · have guarded : (idleRestarted taken).guarded t atMs = true := guarded_iff.mpr ⟨g, mark, same, soon⟩
      refine (exec_hatchScan_of_open running atMs read opened).trans (congrArg _ ?_)
      exact (if_pos (isTag_iff.mpr ⟨low, high⟩)).trans (if_pos guarded)
  · intro taken t
    have fresh : t.guarded tag atMs = false := guarded_of_late (s := t) unguarded
    have first : t.firstHeld q (fun r => r.tag == some tag) = none :=
      firstHeld_eq_none (s := t) fun x hx mem => (others x hx mem).imp_right beq_eq_false_iff_ne.mpr
    have scans {x : State} (h : t.scanClaimant tag q = x) : exec (.hatchScan atMs) s = .next x := by
      rw [exec_hatchScan_of_open running atMs read opened, if_pos (isTag_iff.mpr ⟨low, high⟩), ← h]
      exact congrArg _ (scan_of_notHeld fresh first)
    refine ⟨fun free => scans (scanClaimant_of_unclaimed (s := t) free), fun r claim => ?_⟩
    have claim : claims t tag r := claim
    refine ⟨fun size out hasSize service room => ?_, fun size out hasSize positive full => ?_,
      fun held => scans (scanClaimant_of_held claim held), fun other => scans (scanClaimant_of_other claim other)⟩
    · refine scans ((scanClaimant_of_out claim out).trans (if_pos ?_))
      rw [hasSize, fits_some_iff]
      exact ⟨service, Nat.le_sub_of_add_le' room⟩
    · refine scans ((scanClaimant_of_out claim out).trans (if_neg ?_))
      rw [hasSize, fits_some_iff]
      rintro ⟨-, fits⟩
      have units : t.pcc.freeUnits q = s.pcc.pockets[q].capacity - (s.pcc.pockets[q].used + s.pcc.heldUnits q) := rfl
      omega

/-! ## NOTG -/

/-- The record that a NOTG names, where it has no tag (R150). -/
def namedTagless (n : BitVec 16) (r : Record) : Bool := r.receipt == n.toNat && r.tag.isNone

section Notg

variable {s : State} (idle : panelIdle s) {n : BitVec 16}

include idle

theorem exec_notg_of_zero (zero : n = 0#16) :
    exec (.notg n) s = .next (panelReply (idleRestarted s) .notg .badValue []) := by
  simp only [exec, execNotg, takePanel_panel idle, restartIdle_eq_idleRestarted, if_pos zero]
  rfl

variable (positive : n ≠ 0#16)

include positive

theorem exec_notg_of_noPocket (closed : ¬ (∃ left, s.rc.session = .opened left) ∨ s.rc.openPocket = none) :
    exec (.notg n) s = .next (panelReply (idleRestarted s) .notg .badState []) := by
  simp only [exec, execNotg, takePanel_panel idle, restartIdle_eq_idleRestarted, if_neg positive]
  split
  next => rfl
  next opened =>
    have isOpen : ∃ left, s.rc.session = .opened left :=
      idleRestarted_opened_iff.mp (sessionOpen_iff.mp (by simpa using opened))
    have pocket : (idleRestarted s).rc.openPocket = none := closed.resolve_left (not_not.mpr isOpen)
    rw [pocket]
    rfl

/-- The row of R150 for the record that the open pocket's list gives. -/
theorem exec_notg_of_open {q : Fin 21} (isOpen : ∃ left, s.rc.session = .opened left) (pocket : s.rc.openPocket = some q) :
    (s.firstHeld q (namedTagless n) = none →
      exec (.notg n) s = .next (panelReply (idleRestarted s) .notg .notFound [])) ∧
    (∀ r, s.firstHeld q (namedTagless n) = some r →
      let need := countRequired s.rc.policy r
      let x := lit (staged (idleRestarted s) r q need) .accept
      exec (.notg n) s = .next (panelReply (if q = 0 then x.retest else x) .notg .ok [yesNo need])) := by
  have opened : ¬ (!(idleRestarted s).sessionOpen) = true := by
    simpa using sessionOpen_iff.mpr (idleRestarted_opened_iff.mpr isOpen)
  have there : (idleRestarted s).rc.openPocket = some q := pocket
  simp only [exec, execNotg, takePanel_panel idle, restartIdle_eq_idleRestarted, if_neg positive, if_neg opened, there]
  refine ⟨fun first => ?_, fun r first => ?_⟩
  · have first : (idleRestarted s).firstHeld q (fun r => r.receipt == n.toNat && r.tag.isNone) = none := first
    rw [first]
    rfl
  · have first : (idleRestarted s).firstHeld q (fun r => r.receipt == n.toNat && r.tag.isNone) = some r := first
    rw [first]
    simp only [ok, stage_eq_staged]
    rfl

end Notg

/-- Settles O31: the refusals in their order, and the one record of the receipt that is found and staged. -/
theorem notgStagesATaglessBag : Obligations.NotgStagesATaglessBag := by
  intro n s idle t isOpen answers
  refine ⟨exec_notg_of_zero idle, exec_notg_of_noPocket idle, fun q positive opened pocket others => ?_,
    fun q r positive opened pocket only receipt listed held tagless => ?_⟩
  · refine (exec_notg_of_open idle positive opened pocket).1 (firstHeld_eq_none fun x hx mem => ?_)
    by_cases same : x.receipt = n.toNat
    · refine ((others x hx same).resolve_left (not_not.mpr mem)).imp_right fun tagged => ?_
      simp [namedTagless, Option.isSome_iff_ne_none.mpr tagged]
    · exact .inr (by simp [namedTagless, same])
  · obtain ⟨before, after, list, notBefore⟩ := List.eq_append_cons_of_mem listed
    refine (exec_notg_of_open idle positive opened pocket).2 r (firstHeld_eq_some only list held ?_ fun x hx mem => .inr ?_)
    · simp [namedTagless, receipt, tagless]
    · have other : x.receipt ≠ n.toNat := fun same => notBefore (by rwa [← receipt.trans same.symm] at mem)
      simp [namedTagless, other]

end Sys2Proof.ReleaseProofs
end

section
/-! PROOF. The count policy, and CNFM: what it is refused for, and the record retired (R12, R151, R155, R156). -/

namespace Sys2Proof.ReleaseProofs

open Sys2Proof.Machine Sys2Proof.Safety Sys2Proof.CustodyProofs Sys2Proof.AdviceProofs

/-! ## The count policy -/

/-- A term is true of a record where its condition holds, or fails and is inverted (R151). -/
theorem term_iff (holds invert : Bool) :
    (holds != invert) = true ↔ holds = true ∧ invert = false ∨ ¬ holds = true ∧ invert = true := by
  cases holds <;> cases invert <;> decide

/-- Settles O34: the conditions are those of the table, and a term is its condition or the inversion of it. -/
theorem countPolicyDecides : Obligations.CountPolicyDecides := by
  intro policy r condition
  have reads (c : Condition) : c.holds r = true ↔ condition c := by
    cases c with
    | inside | light | heavy | wrong | unadvised | lateAdvice => exact beq_iff_eq
    | slipSum | overRange | unsteady | interrupted => exact Iff.rfl
    | exception => exact Option.isSome_iff_ne_none
  simp only [countRequired, Bool.or_eq_true, beq_iff_eq, List.any_eq_true, term_iff, reads]

/-! ## CNFM -/

/-- The fields that R155 refuses BAD_VALUE. -/
def badConfirm (n counted : Nat) (ids : List (BitVec 24)) : Prop :=
  n = 0 ∨ 99999999999 < counted ∨ (ids.length ≠ 1 ∧ ids.length ≠ 2) ∨ ∃ id ∈ ids, id.toNat = 0 ∨ 999999 < id.toNat

/-- Two different ids, one of a SUPERVISOR at least (R155). -/
def dualCount (s : State) (ids : List (BitVec 24)) : Prop :=
  ∃ a b, ids = [a, b] ∧ a ≠ b ∧ (hasRole s a .supervisor ∨ hasRole s b .supervisor)

theorem dualIds_iff {s : State} {ids : List (BitVec 24)} : s.dualIds ids = true ↔ dualCount s ids := by
  unfold State.dualIds dualCount
  split
  next a b => simp [isSupervisor_iff]
  next other => exact iff_of_false nofun fun ⟨a, b, pair, _⟩ => other a b pair

theorem staffIdOf_isNone_iff {id : BitVec 24} : (staffIdOf id).isNone = true ↔ id.toNat = 0 ∨ 999999 < id.toNat := by
  by_cases out : id.toNat = 0 ∨ 999999 < id.toNat
  · simp [staffIdOf_of_out out, out]
  · simp [staffIdOf_of_in out, out]

theorem badConfirm_iff {n counted : Nat} {ids : List (BitVec 24)} : badConfirm n counted ids ↔
    n = 0 ∨ Config.declaredLimit < counted ∨ ¬ (ids.length = 1 ∨ ids.length = 2) ∨
      ids.any (fun id => (staffIdOf id).isNone) = true := by
  simp only [badConfirm, Config.declaredLimit, not_or, List.any_eq_true, staffIdOf_isNone_iff]

section Confirm

variable {s : State} {n counted : Nat} {ids : List (BitVec 24)}

theorem confirm_of_bad (bad : badConfirm n counted ids) : s.confirm n counted ids = refuse s .badValue :=
  if_pos (badConfirm_iff.mp bad)

variable (good : ¬ badConfirm n counted ids)

include good

theorem confirm_of_absent (absent : s.record n = none) : s.confirm n counted ids = refuse s .notFound := by
  rw [State.confirm, if_neg (badConfirm_iff.not.mp good), absent]

/-- The rows of R155 for the record that holds the receipt. -/
theorem confirm_of_holds {r : Record} (only : holds s r) (receipt : r.receipt = n) : s.confirm n counted ids =
    if r.state ≠ .staged ∧ r.state ≠ .overdue then refuse s .badState
    else if ids.any fun id => (s.role id).isNone then refuse s .deny
    else if r.countRequired && !s.dualIds ids then refuse s .second
    else ((withoutRecord s r).retest,
      { word := if r.state = .overdue then .late else .ok, data := r.retirement counted }) := by
  subst receipt
  rw [State.confirm, if_neg (badConfirm_iff.not.mp good), record_of_holds only]
  simp only [remove_eq_withoutRecord]

end Confirm

/-- Settles O35: the checks in the order of R155, and the retirement where none refuses. -/
theorem cnfmRetiresTheRecord : Obligations.CnfmRetiresTheRecord := by
  intro n counted ids s idle bad dual answers
  have confirms {t : State} {a : Answer} (h : s.confirm n.toNat counted.toNat ids = (t, a)) : answers t a.word a.data := by
    simp only [answers, exec, execCnfm, takeRequest_branch idle, h]
  refine ⟨fun h => confirms (confirm_of_bad h), fun good others => confirms (confirm_of_absent good (findReceipt_none others)),
    fun r good only receipt => ?_⟩
  have rows := confirm_of_holds good only receipt
  have outside (h : r.state = .staged ∨ r.state = .overdue) : ¬ (r.state ≠ .staged ∧ r.state ≠ .overdue) :=
    fun ⟨notStaged, notOverdue⟩ => h.elim notStaged notOverdue
  have rostered (h : ∀ id ∈ ids, ∃ role, hasRole s id role) : ¬ (ids.any fun id => (s.role id).isNone) = true := by
    rw [List.any_eq_true]
    rintro ⟨id, mem, unknown⟩
    obtain ⟨role, member⟩ := h id mem
    simp [role_of_hasRole member] at unknown
  refine ⟨fun notStaged notOverdue => ?_, fun out ⟨id, mem, stranger⟩ => ?_, fun out members required single => ?_,
    fun out members enough => ?_⟩
  · exact confirms (rows.trans (if_pos ⟨notStaged, notOverdue⟩))
  · have unknown : (ids.any fun id => (s.role id).isNone) = true :=
      List.any_eq_true.mpr ⟨id, mem, by simp [role_of_notRostered stranger]⟩
    exact confirms (rows.trans ((if_neg (outside out)).trans (if_pos unknown)))
  · have notDual : s.dualIds ids = false := Bool.eq_false_iff.mpr fun h => single (dualIds_iff.mp h)
    exact confirms (rows.trans ((if_neg (outside out)).trans ((if_neg (rostered members)).trans
      (if_pos (by simp [required, notDual])))))
  · have passed : ¬ (r.countRequired && !s.dualIds ids) = true := by
      obtain free | both := enough
      · simp [free]
      · simp [dualIds_iff.mpr both]
    exact confirms (rows.trans ((if_neg (outside out)).trans ((if_neg (rostered members)).trans (if_neg passed))))

end Sys2Proof.ReleaseProofs
end

section
/-! PROOF. The bytes of fields, and of the items that a count field announces, read as what they were written from and written
again as they were read (R165, R168). -/

namespace Sys2Proof.LineProofs

open Sys2Proof.Machine Sys2Proof.Safety

/-! ## Numbers as bytes -/

@[simp] theorem length_be (n x : Nat) : (be n x).length = n := by
  induction n with
  | zero => rfl
  | succ n ih => simp [be, ih]

theorem be_mul_add (n c x : Nat) : be n (c * 256 ^ n + x) = be n x := by
  induction n generalizing c with
  | zero => rfl
  | succ n ih =>
    have shift : c * 256 ^ (n + 1) + x = 256 ^ n * (c * 256) + x := by ring
    have high : (c * 256 ^ (n + 1) + x) / 256 ^ n = c * 256 + x / 256 ^ n := by
      rw [shift, Nat.mul_add_div (by positivity)]
    have low : be n (c * 256 ^ (n + 1) + x) = be n x := by rw [shift, mul_comm, ih]
    rw [be, be, high, low, BitVec.ofNat_add, BitVec.ofNat_mul]
    simp

theorem foldl_beNat (bytes : List Byte) (start : Nat) :
    bytes.foldl (fun acc b => acc * 256 + b.toNat) start = start * 256 ^ bytes.length + beNat bytes := by
  unfold beNat
  induction bytes generalizing start with
  | nil => simp
  | cons b bytes ih =>
    rw [List.foldl_cons, List.foldl_cons, ih, ih (0 * 256 + b.toNat), List.length_cons, pow_succ]
    ring

theorem beNat_cons (b : Byte) (bytes : List Byte) : beNat (b :: bytes) = b.toNat * 256 ^ bytes.length + beNat bytes := by
  rw [beNat, List.foldl_cons, foldl_beNat]
  simp

theorem beNat_lt (bytes : List Byte) : beNat bytes < 256 ^ bytes.length := by
  induction bytes with
  | nil => simp [beNat]
  | cons b bytes ih =>
    rw [beNat_cons, List.length_cons, pow_succ]
    have := b.isLt
    nlinarith

/-- A number read from its own bytes is the number, as far as the bytes hold it (R165). -/
theorem beNat_be (n x : Nat) : beNat (be n x) = x % 256 ^ n := by
  induction n with
  | zero => simp [be, beNat, Nat.mod_one]
  | succ n ih =>
    rw [be, beNat_cons, ih, length_be, pow_succ, Nat.mod_mul]
    simp [mul_comm, add_comm]

/-- Bytes written from the number that they stand for are the same bytes (R165). -/
theorem be_beNat (bytes : List Byte) : be bytes.length (beNat bytes) = bytes := by
  induction bytes with
  | nil => rfl
  | cons b bytes ih =>
    have low := beNat_lt bytes
    have rest : be bytes.length (beNat (b :: bytes)) = bytes := by
      rw [beNat_cons, be_mul_add, ih]
    rw [List.length_cons, be, rest, beNat_cons, Nat.mul_comm, Nat.mul_add_div (by positivity), Nat.div_eq_of_lt low]
    simp

@[simp] theorem length_bytesOf (n : Nat) {w : Nat} (x : BitVec w) : (bytesOf n x).length = n := length_be ..

@[simp] theorem field_bytesOf {n w : Nat} (x : BitVec w) (h : w ≤ 8 * n) : field w (bytesOf n x) = x := by
  have wide : 2 ^ w ≤ 256 ^ n := by
    calc 2 ^ w ≤ 2 ^ (8 * n) := Nat.pow_le_pow_right (by decide) h
      _ = 256 ^ n := pow_mul 2 8 n
  simp [field, bytesOf, beNat_be, Nat.mod_eq_of_lt (x.isLt.trans_le wide)]

/-- A field of whole bytes is written as the bytes that it was read from. -/
theorem bytesOf_field {n w : Nat} {bytes : List Byte} (length : bytes.length = n) (h : w = 8 * n) :
    bytesOf n (field w bytes) = bytes := by
  subst length h
  have fits : beNat bytes < 2 ^ (8 * bytes.length) := by rw [pow_mul]; exact beNat_lt bytes
  rw [bytesOf, field, BitVec.toNat_ofNat, Nat.mod_eq_of_lt fits, be_beNat]

theorem bytesOf_one (x : Byte) : bytesOf 1 x = [x] := by simp [bytesOf, be]

/-! ## Places of a body -/

@[simp] theorem slice_append_left {p q : List Byte} {a n : Nat} (h : a + n ≤ p.length) :
    slice (p ++ q) a n = slice p a n := by
  rw [slice, List.drop_append_of_le_length (by omega), List.take_append_of_le_length (by simp; omega), slice]

@[simp] theorem slice_append_right {p q : List Byte} {a n : Nat} (h : p.length ≤ a) :
    slice (p ++ q) a n = slice q (a - p.length) n := by
  simp [slice, List.drop_append, List.drop_eq_nil_of_le h]

@[simp] theorem slice_cons (b : Byte) (q : List Byte) (a n : Nat) : slice (b :: q) (a + 1) n = slice q a n := rfl

@[simp] theorem slice_eq_self {bytes : List Byte} {n : Nat} (h : bytes.length ≤ n) : slice bytes 0 n = bytes :=
  List.take_of_length_le h

@[simp] theorem byteAt_append_left {p q : List Byte} {a : Nat} (h : a < p.length) : byteAt (p ++ q) a = byteAt p a := by
  rw [byteAt, List.getElem?_append_left h, byteAt]

@[simp] theorem byteAt_append_right {p q : List Byte} {a : Nat} (h : p.length ≤ a) :
    byteAt (p ++ q) a = byteAt q (a - p.length) := by
  rw [byteAt, List.getElem?_append_right h, byteAt]

@[simp] theorem byteAt_cons_zero (b : Byte) (q : List Byte) : byteAt (b :: q) 0 = b := rfl

@[simp] theorem byteAt_cons_succ (b : Byte) (q : List Byte) (a : Nat) : byteAt (b :: q) (a + 1) = byteAt q a := rfl

theorem length_slice {bytes : List Byte} {a n : Nat} (h : a + n ≤ bytes.length) : (slice bytes a n).length = n := by
  simp [slice]; omega

theorem bytesOf_field_slice {bytes : List Byte} {a n w : Nat} (h : a + n ≤ bytes.length) (wide : w = 8 * n) :
    bytesOf n (field w (slice bytes a n)) = slice bytes a n := bytesOf_field (length_slice h) wide

theorem slice_append_slice {bytes : List Byte} {a b m n : Nat} (follows : b = a + m) :
    slice bytes a m ++ slice bytes b n = slice bytes a (m + n) := by
  rw [follows, slice, slice, slice, ← List.drop_drop, ← List.take_add]

theorem singleton_byteAt {bytes : List Byte} {a : Nat} (h : a < bytes.length) : [byteAt bytes a] = slice bytes a 1 := by
  rw [slice, List.take_one, List.head?_drop, byteAt, List.getElem?_eq_getElem h]
  rfl

theorem byteAt_cons_slice {bytes : List Byte} {a b n : Nat} (h : a < bytes.length) (follows : b = a + 1) :
    byteAt bytes a :: slice bytes b n = slice bytes a (n + 1) := by
  rw [← List.singleton_append, singleton_byteAt h, slice_append_slice follows, add_comm]

/-! ## Counted items -/

theorem chunks_flatten {k : Nat} {items : List (List Byte)} (each : ∀ c ∈ items, c.length = k) :
    chunks k items.length items.flatten = items := by
  induction items with
  | nil => rfl
  | cons c items ih =>
    obtain ⟨rfl, rest⟩ := List.forall_mem_cons.mp each
    simp [chunks, ih rest]

@[simp] theorem length_chunks (k n : Nat) (bytes : List Byte) : (chunks k n bytes).length = n := by
  induction n generalizing bytes with
  | zero => rfl
  | succ n ih => simp [chunks, ih]

theorem flatten_chunks {k n : Nat} {bytes : List Byte} (h : bytes.length = k * n) : (chunks k n bytes).flatten = bytes := by
  induction n generalizing bytes with
  | zero => simp_all [chunks]
  | succ n ih => rw [chunks, List.flatten_cons, ih (by simp [h, Nat.mul_succ]), List.take_append_drop]

theorem length_of_mem_chunks {k n : Nat} {bytes c : List Byte} (h : bytes.length = k * n) (mem : c ∈ chunks k n bytes) :
    c.length = k := by
  induction n generalizing bytes with
  | zero => cases mem
  | succ n ih =>
    obtain rfl | mem := List.mem_cons.mp mem
    · simp [h, Nat.mul_succ]
    · exact ih (by simp [h, Nat.mul_succ]) mem

theorem length_flatten_of_each {k : Nat} {items : List (List Byte)} (each : ∀ c ∈ items, c.length = k) :
    items.flatten.length = k * items.length := by
  induction items with
  | nil => rfl
  | cons c items ih =>
    obtain ⟨rfl, rest⟩ := List.forall_mem_cons.mp each
    rw [List.flatten_cons, List.length_append, ih rest, List.length_cons, Nat.mul_succ, add_comm]

@[simp] theorem counted_append_right {p q : List Byte} {a k : Nat} (h : p.length ≤ a) :
    counted (p ++ q) a k = counted q (a - p.length) k := by
  have size (x : Nat) : (p ++ q).length = a + 1 + x ↔ q.length = a - p.length + 1 + x := by simp; omega
  simp only [counted, byteAt_append_right h, size, List.drop_append, List.drop_eq_nil_of_le (Nat.le_succ_of_le h),
    List.nil_append, Nat.sub_add_comm h]

@[simp] theorem counted_cons (b : Byte) (q : List Byte) (a k : Nat) : counted (b :: q) (a + 1) k = counted q a k :=
  counted_append_right (p := [b]) (Nat.le_add_left 1 a)

/-- A count field and its items are read as the items (R168). -/
theorem counted_countBody {k n : Nat} {items : List (List Byte)} (count : items.length = n)
    (each : ∀ c ∈ items, c.length = k) (short : n < 256) : counted (countBody n items) 0 k = some items := by
  subst count
  have number : (byteAt (countBody items.length items) 0).toNat = items.length := by
    simp [countBody, Nat.mod_eq_of_lt short]
  rw [counted, number, if_pos]
  · rw [countBody, Nat.zero_add, List.drop_one, List.tail_cons, chunks_flatten each]
  · rw [countBody, List.length_cons, length_flatten_of_each each, Nat.zero_add, add_comm]

/-- What a count field announces, written again after what stands before it, is the body (R168). -/
theorem countBody_of_counted {body : List Byte} {a k : Nat} {items : List (List Byte)} (h : counted body a k = some items) :
    slice body 0 a ++ countBody items.length items = body ∧ (∀ c ∈ items, c.length = k) ∧ a < body.length := by
  unfold counted at h
  split at h
  next size =>
    obtain rfl := Option.some.inj h
    have rest : (body.drop (a + 1)).length = k * (byteAt body a).toNat := by simp; omega
    refine ⟨?_, fun c => length_of_mem_chunks rest, by omega⟩
    have number : slice body a 1 = [BitVec.ofNat 8 (byteAt body a).toNat] := by
      rw [← singleton_byteAt (by omega), BitVec.ofNat_toNat, BitVec.setWidth_eq]
    calc slice body 0 a ++ countBody _ _
        = slice body 0 a ++ (slice body a 1 ++ body.drop (a + 1)) := by
          rw [countBody, length_chunks, flatten_chunks rest, number, List.singleton_append]
      _ = body := by
          rw [slice, slice, List.drop_zero, ← List.drop_drop, List.take_append_drop, List.take_append_drop]
  next => cases h

theorem byteAt_cons_countBody {body : List Byte} {a n : Nat} {items : List (List Byte)} (h : a < body.length) :
    byteAt body a :: countBody n items = slice body a 1 ++ countBody n items := by
  rw [← singleton_byteAt h, List.singleton_append]

theorem counted_isSome_iff {body : List Byte} {a k : Nat} : (counted body a k).isSome = true ↔
    ∃ n, body[a]? = some n ∧ body.length = a + 1 + k * n.toNat := by
  unfold counted byteAt
  cases h : body[a]? with
  | none =>
    have : body.length ≤ a := List.getElem?_eq_none_iff.mp h
    simp
    omega
  | some n => simp

end Sys2Proof.LineProofs
end

section
/-! PROOF. The catalogue: each request's body read as the request, and the request written as the body it was read from (R162,
R165, R168, R180). -/

namespace Sys2Proof.LineProofs

open Sys2Proof.Machine Sys2Proof.Safety

/-! ## Names -/

theorem ofCode_code (r : ReqName) : ReqName.ofCode r.line r.code = some r := by cases r <;> decide

theorem ofCode_eq_none {l : Line} {name : BitVec 32} (h : ∀ r : ReqName, r.line = l → r.code ≠ name) :
    ReqName.ofCode l name = none := by
  refine List.find?_eq_none.mpr fun r _ => ?_
  simpa [imp_not_comm] using h r

/-! ## Groups of fields -/

theorem lineField_bytes (x : LineField) : lineField (x.denom :: bytesOf 2 x.count) = x := by simp [lineField]

theorem denomField_bytes (x : DenomField) : denomField (bytesOf 3 x.face ++ (bytesOf 2 x.mass ++ [x.spread])) = x := by
  simp [denomField]

theorem staffField_bytes (x : StaffField) : staffField (bytesOf 3 x.id ++ [x.role]) = x := by simp [staffField]

theorem tolFieldAt_body (set : Byte) (x : TolField) : tolFieldAt (set :: x.body) 1 = x := by
  simp [tolFieldAt, TolField.body]

theorem timerFieldAt_body (x : TimerField) : timerFieldAt x.body 0 = x := by
  simp [timerFieldAt, TimerField.body, bytesOf_one]

theorem bytes_lineField {c : List Byte} (h : c.length = 3) :
    (lineField c).denom :: bytesOf 2 (lineField c).count = c := by
  simp (disch := omega) [lineField, bytesOf_field_slice, byteAt_cons_slice]

theorem bytes_denomField {c : List Byte} (h : c.length = 6) :
    bytesOf 3 (denomField c).face ++ bytesOf 2 (denomField c).mass ++ [(denomField c).spread] = c := by
  simp (disch := omega) only [denomField, bytesOf_field_slice, singleton_byteAt, slice_append_slice, slice_eq_self]

theorem bytes_staffField {c : List Byte} (h : c.length = 4) :
    bytesOf 3 (staffField c).id ++ [(staffField c).role] = c := by
  simp (disch := omega) only [staffField, bytesOf_field_slice, singleton_byteAt, slice_append_slice, slice_eq_self]

theorem bytes_termField {c : List Byte} (h : c.length = 2) :
    [(termField c).condition, (termField c).invert] = c := by
  simp (disch := omega) only [termField, singleton_byteAt, byteAt_cons_slice, slice_eq_self]

theorem bytes_tolFieldAt {body : List Byte} (h : body.length = 19) :
    byteAt body 0 :: (tolFieldAt body 1).body = body := by
  simp (disch := omega) only [tolFieldAt, TolField.body, bytesOf_field_slice, slice_append_slice, byteAt_cons_slice,
    slice_eq_self]

theorem bytes_timerFieldAt {body : List Byte} (h : body.length = 15) : (timerFieldAt body 0).body = body := by
  simp (disch := omega) only [timerFieldAt, TimerField.body, bytesOf_one, bytesOf_field_slice, singleton_byteAt,
    byteAt_cons_slice, slice_append_slice, slice_eq_self]

theorem bytes_rangeFieldAt {body : List Byte} (group : List Byte) (h : 11 ≤ body.length) :
    byteAt body 0 :: (rangeFieldAt body 1 group).body =
      slice body 0 11 ++ countBody group.length (group.map fun p => [p]) := by
  simp (disch := omega) only [rangeFieldAt, RangeField.body, bytesOf_field_slice, singleton_byteAt, byteAt_cons_slice,
    slice_append_slice, ← List.cons_append]

/-- Items read one by one and written one by one are the items. -/
theorem map_map_of_each {α : Type} {k : Nat} {read : List Byte → α} {write : α → List Byte} {items : List (List Byte)}
    (each : ∀ c ∈ items, c.length = k) (back : ∀ c : List Byte, c.length = k → write (read c) = c) :
    (items.map read).map write = items := by
  rw [List.map_map]
  exact (List.map_congr_left fun c mem => back c (each c mem)).trans (List.map_id items)

/-! ## The catalogue -/

/-- A request whose body fits one frame is read back from it (R162, R168, R180). -/
theorem parse_encode {c : Instr} {r : ReqName} {body : List Byte} (wf : c.wf = true) (h : c.encode = some (r, body)) :
    r.parse body = some c := by
  cases c <;> cases h
  case advs | clrs | cnfm | rngw | denw | rost | polw =>
    have short := of_decide_eq_true wf
    simp only [maxBody] at short
    simp [ReqName.parse, RangeField.body]
    rw [counted_countBody (by simp) (by simp) (by omega)]
    simp [Function.comp_def, rangeFieldAt, lineField_bytes, denomField_bytes, staffField_bytes, termField]
  case tolw set x =>
    have size : x.body.length = 18 := by simp [TolField.body]
    simp [ReqName.parse, sized, size, tolFieldAt_body]
  case timw x =>
    have size : x.body.length = 15 := by simp [TimerField.body]
    have written : x.body.isEmpty = false := by rw [List.isEmpty_eq_false_iff, ← List.length_pos_iff]; omega
    simp [ReqName.parse, sized, written, size, timerFieldAt_body]
  all_goals simp [ReqName.parse, sized]

theorem sized_eq_some_iff {body : List Byte} {n : Nat} {i c : Instr} :
    sized body n i = some c ↔ body.length = n ∧ i = c := by simp [sized]

/-- A request read from a body is written as that body (R162, R168, R180). -/
theorem encode_parse {c : Instr} {r : ReqName} {body : List Byte} (h : r.parse body = some c) :
    c.encode = some (r, body) := by
  cases r
  all_goals simp only [ReqName.parse, sized_eq_some_iff, Option.map_eq_some_iff] at h
  case timw =>
    split at h
    next empty => cases h; simp [Instr.encode, List.isEmpty_iff.mp empty]
    next =>
      obtain ⟨size, rfl⟩ := sized_eq_some_iff.mp h
      rw [Instr.encode, bytes_timerFieldAt size]
  case advs | clrs | cnfm | rngw | denw | rost | polw =>
    obtain ⟨items, read, rfl⟩ := h
    obtain ⟨whole, each, start⟩ := countBody_of_counted read
    simp (disch := omega) only [Instr.encode, bytesOf_field_slice, slice_append_slice, byteAt_cons_countBody,
      bytes_rangeFieldAt, List.length_map]
    rw [map_map_of_each each]
    · exact congrArg (fun b => some (_, b)) whole
    · intro c size
      simp (disch := omega) only [bytes_lineField, bytes_denomField, bytes_staffField, bytes_termField, bytesOf_field,
        singleton_byteAt, slice_eq_self]
  case nopn | ncls | ntot | stat | rnga | genr | save | wipe | pcls =>
    obtain ⟨size, rfl⟩ := h
    rw [List.length_eq_zero_iff.mp size, Instr.encode]
  all_goals
    obtain ⟨size, rfl⟩ := h
    simp (disch := omega) only [Instr.encode, bytesOf_field, bytesOf_field_slice, singleton_byteAt, byteAt_cons_slice,
      slice_append_slice, slice_eq_self, bytes_tolFieldAt]

/-- A body is read exactly when its size is the one that its fields call for (R162, R168, R180). -/
theorem parse_isSome_iff {r : ReqName} {body : List Byte} : (r.parse body).isSome = true ↔ bodyFits r body := by
  cases r
  case timw => by_cases empty : body = [] <;> simp [ReqName.parse, sized, bodyFits, empty]
  all_goals simp [ReqName.parse, sized, bodyFits, counted_isSome_iff]

/-! ## Decoding -/

theorem decode_unknownName {l : Line} {name : BitVec 32} {body : List Byte}
    (h : ∀ r : ReqName, r.line = l → r.code ≠ name) : decodeRequest l name body = .unknownName := by
  rw [decodeRequest, ofCode_eq_none h]

theorem decode_wrongSize {r : ReqName} {body : List Byte} (h : ¬ bodyFits r body) :
    decodeRequest r.line r.code body = .wrongSize := by
  have unread : r.parse body = none := Option.not_isSome_iff_eq_none.mp (parse_isSome_iff.not.mpr h)
  simp only [decodeRequest, ofCode_code, unread]

theorem decode_request {r : ReqName} {body : List Byte} {c : Instr} (h : r.parse body = some c) :
    decodeRequest r.line r.code body = .request c := by
  simp only [decodeRequest, ofCode_code, h]

theorem decode_encode {c : Instr} {r : ReqName} {body : List Byte} (wf : c.wf = true) (h : c.encode = some (r, body)) :
    decodeRequest r.line r.code body = .request c := decode_request (parse_encode wf h)

/-- Settles O4: each body is read field by field as it was written. -/
theorem decodeReadsEncodedRequests : Obligations.DecodeReadsEncodedRequests :=
  fun _ _ _ wf written => decode_encode wf written

end Sys2Proof.LineProofs
end

section
/-! PROOF. The receiver of a line: bytes taken, a frame completed, and the rows that judge it (R159 to R163, R168, R180). -/

namespace Sys2Proof.LineProofs

open Sys2Proof.Machine Sys2Proof.Safety Sys2Proof.CustodyProofs

section Receiver

variable {s : State} {l : Line}

/-! ## A line written -/

theorem setLine_setLine (x y : LineState) : (s.setLine l x).setLine l y = s.setLine l y := by cases l <;> rfl

theorem setLine_line_self (s : State) (l : Line) : s.setLine l (s.line l) = s := by cases l <;> rfl

theorem address_setLine (x : LineState) (m : Line) : (s.setLine l x).address m = s.address m := by
  cases m
  · rw [State.address, State.setLine_ss, State.address]
  · rfl

theorem setReceiver_eq (free : (s.line l).reply = none) (x : Receiver) :
    s.setReceiver l x = s.setLine l { receiver := x, reply := none } := by
  simp only [State.setReceiver, free]

theorem address_setReceiver (x : Receiver) (m : Line) : (s.setReceiver l x).address m = s.address m := address_setLine _ m

theorem replying_iff : s.replying l = true ↔ (s.line l).reply.isSome = true := Iff.rfl

theorem not_replying (free : (s.line l).reply = none) : ¬ s.replying l = true := by simp [State.replying, free]

/-! ## One byte -/

theorem exec_lineByteReceived_hunt (running : s.resetHeld = false) (free : (s.line l).reply = none)
    (hunt : (s.line l).receiver = .hunt) (b : Byte) :
    exec (.lineByteReceived l b) s = .next (if b = 0xA5#8 then s.setReceiver l (.frame []) else s) := by
  rw [exec, execLineByteReceived, whenRunning_running running, if_neg (not_replying free), hunt]

theorem exec_lineByteReceived_frame (running : s.resetHeld = false) (free : (s.line l).reply = none) {taken : List Byte}
    (inside : (s.line l).receiver = .frame taken) (b : Byte) :
    exec (.lineByteReceived l b) s = frameByte l (taken ++ [b]) s := by
  rw [exec, execLineByteReceived, whenRunning_running running, if_neg (not_replying free), inside]

/-- A length byte out of range ends the frame (R160). -/
theorem frameByte_of_badLength {bytes : List Byte} (second : bytes.length = 2)
    (bad : (byteAt bytes 1).toNat < 4 ∨ 250 < (byteAt bytes 1).toNat) :
    frameByte l bytes s = .next (s.setReceiver l .hunt) := if_pos ⟨second, bad⟩

/-- The last CRC byte completes the frame (R160). -/
theorem frameByte_of_complete {bytes : List Byte} (whole : bytes.length = (byteAt bytes 1).toNat + 4) :
    frameByte l bytes s = checkFrame l (frameOf bytes) (s.setReceiver l .hunt) := by
  rw [frameByte, if_neg (by omega), if_pos (by omega)]

/-- Every other byte is stored (R160). -/
theorem frameByte_of_part {bytes : List Byte} (part : 2 ≤ bytes.length →
    4 ≤ (byteAt bytes 1).toNat ∧ (byteAt bytes 1).toNat ≤ 250 ∧ bytes.length ≠ (byteAt bytes 1).toNat + 4) :
    frameByte l bytes s = .next (s.setReceiver l (.frame bytes)) := by
  rw [frameByte, if_neg (by omega), if_neg (by omega)]

/-! ## A whole frame -/

/-- The bytes of a frame, one after the other, are taken as the frame that they spell (R159, R160). -/
theorem feed_of_whole (running : s.resetHeld = false) {whole : List Byte} (low : 4 ≤ (byteAt whole 1).toNat)
    (high : (byteAt whole 1).toNat ≤ 250) (size : whole.length = (byteAt whole 1).toNat + 4) {taken rest : List Byte}
    (split : taken ++ rest = whole) (more : rest ≠ []) :
    feed l rest (s.setLine l { receiver := .frame taken }) = checkFrame l (frameOf whole) (s.setLine l {}) := by
  induction rest generalizing taken with
  | nil => exact absurd rfl more
  | cons b rest ih =>
    have stored := exec_lineByteReceived_frame (s := s.setLine l { receiver := .frame taken }) (l := l) (taken := taken)
      (by simpa) (by simp) (by simp) b
    have split : (taken ++ [b]) ++ rest = whole := by simpa using split
    rw [feed, stored]
    by_cases last : rest = []
    · obtain rfl : taken ++ [b] = whole := by simpa [last] using split
      rw [frameByte_of_complete size, setReceiver_eq (by simp), setLine_setLine, last]
      cases checkFrame l (frameOf (taken ++ [b])) (s.setLine l {}) <;> rfl
    · have count : (taken ++ [b]).length + rest.length = whole.length := by
        simp only [← split, List.length_append]
      have := List.length_pos_iff.mpr last
      have part : 2 ≤ (taken ++ [b]).length → byteAt (taken ++ [b]) 1 = byteAt whole 1 := fun h => by
        rw [← split, byteAt_append_left h]
      rw [frameByte_of_part fun h => by rw [part h]; omega, setReceiver_eq (by simp), setLine_setLine]
      exact ih split last

/-- The fields of the frame that bytes spell (R159). -/
theorem frameOf_eq {a n : Byte} {name body crc : List Byte} (four : name.length = 4) (two : crc.length = 2) :
    frameOf (a :: n :: (name ++ body ++ crc)) =
      { address := a, name := field 32 name, body, crc := field 16 crc } := by
  have size : (a :: n :: (name ++ body ++ crc)).length = body.length + 6 + 2 := by simp; omega
  simp only [frameOf, size]
  simp [four, two]

theorem frameOf_frameBytes (a : Byte) (name : BitVec 32) (body : List Byte) (crc : BitVec 16) :
    frameOf (frameBytes a name body ++ be 2 crc.toNat) = { address := a, name, body, crc } := by
  have first : field 32 (be 4 name.toNat) = name := field_bytesOf name (by decide)
  have last : field 16 (be 2 crc.toNat) = crc := field_bytesOf crc (by decide)
  refine (frameOf_eq (name := be 4 name.toNat) (by simp) (by simp)).trans ?_
  rw [first, last]

/-- The bytes after the length byte are those of the frame that they make (R159). -/
theorem bytes_of_frameOf {a n : Byte} {rest : List Byte} {f : Frame} (long : 6 ≤ rest.length)
    (made : frameOf (a :: n :: rest) = f) :
    f.address = a ∧ be 4 f.name.toNat ++ f.body ++ be 2 f.crc.toNat = rest := by
  obtain ⟨front, crc, rfl, two⟩ : ∃ front crc, rest = front ++ crc ∧ crc.length = 2 :=
    ⟨_, _, (List.take_append_drop (rest.length - 2) rest).symm, by simp; omega⟩
  obtain ⟨name, body, rfl, four⟩ : ∃ name body, front = name ++ body ∧ name.length = 4 :=
    ⟨_, _, (List.take_append_drop 4 front).symm, by simp at long ⊢; omega⟩
  rw [frameOf_eq four two] at made
  subst made
  have first : be 4 (field 32 name).toNat = name := bytesOf_field four rfl
  have last : be 2 (field 16 crc).toNat = crc := bytesOf_field two rfl
  simp only [first, last, and_self]

/-! ## The rows of R162 -/

section Rows

variable {f : Frame}

theorem exec_frameRejected (running : s.resetHeld = false) (free : (s.line l).reply = none) (f : Frame) :
    exec (.frameRejected l f) s = checkFrame l f (s.setReceiver l .hunt) := by
  rw [exec, execFrameRejected, whenRunning_running running, if_neg (not_replying free)]

theorem checkFrame_of_lost (lost : s.address l ≠ some f.address ∨ ¬ f.crc = crc16 (frameBytes f.address f.name f.body)) :
    checkFrame l f s = .next s := by
  unfold checkFrame
  split
  · rfl
  next ours => rw [if_pos (lost.resolve_left ours)]

variable (ours : s.address l = some f.address) (good : f.crc = crc16 (frameBytes f.address f.name f.body))

include ours good

theorem checkFrame_of_unknownName (h : decodeRequest l f.name f.body = .unknownName) :
    checkFrame l f s = .next (s.answer l f.name { word := .unknown }) := by
  rw [checkFrame, if_neg (not_not.mpr ours), if_neg (not_not.mpr good), h]

theorem checkFrame_of_wrongSize (h : decodeRequest l f.name f.body = .wrongSize) :
    checkFrame l f s = .next (s.answer l f.name { word := .badValue }) := by
  rw [checkFrame, if_neg (not_not.mpr ours), if_neg (not_not.mpr good), h]

theorem checkFrame_of_request {c : Instr} (carried : c.encode.isSome = true)
    (h : decodeRequest l f.name f.body = .request c) : checkFrame l f s = exec c s := by
  rw [checkFrame, if_neg (not_not.mpr ours), if_neg (not_not.mpr good), h, exec_eq_runRequest carried]

end Rows

end Receiver

theorem encode_isSome {c : Instr} {x : ReqName × List Byte} (h : c.encode = some x) : c.encode.isSome = true := by
  rw [h, Option.isSome_some]

/-- The body of a request that can be sent fits one frame (R159). -/
theorem length_body {c : Instr} {r : ReqName} {body : List Byte} (wf : c.wf = true) (h : c.encode = some (r, body)) :
    body.length ≤ 246 := by
  cases c <;> cases h
  case advs | clrs | cnfm | rngw | denw | rost | polw =>
    have short := of_decide_eq_true wf
    simp only [maxBody] at short
    simp [countBody, RangeField.body, Function.comp_def]
    omega
  all_goals simp [TolField.body, TimerField.body]

/-- The bytes of a frame, sent to a free line in HUNT, complete it (R159, R160). -/
theorem feed_wireFrame {s : State} {l : Line} {f : Frame} (running : s.resetHeld = false) (free : s.line l = {})
    (fits : f.body.length ≤ 246) (good : crc16 (frameBytes f.address f.name f.body) = f.crc) :
    feed l (wireFrame f.address f.name f.body) s = checkFrame l f s := by
  have begun : exec (.lineByteReceived l 0xA5#8) s = .next (s.setLine l { receiver := .frame [] }) := by
    rw [exec_lineByteReceived_hunt running (by rw [free]) (by rw [free]), if_pos rfl, setReceiver_eq (by rw [free])]
  obtain ⟨whole, made⟩ : ∃ whole, frameBytes f.address f.name f.body ++ be 2 f.crc.toNat = whole := ⟨_, rfl⟩
  have size : whole.length = f.body.length + 8 := by
    simp [← made, frameBytes]
    omega
  have number : (byteAt whole 1).toNat = f.body.length + 4 := by
    simp [← made, frameBytes]
    omega
  have taken := feed_of_whole (l := l) (taken := []) running (by omega) (by omega) (by omega) (List.nil_append whole)
    (List.ne_nil_of_length_pos (by omega))
  rw [← made, frameOf_frameBytes, ← free, setLine_line_self, made] at taken
  rw [wireFrame, good, made, feed, begun]
  exact taken

/-- Settles O5: the bytes are taken as the frame that they spell, which carries the request. -/
theorem frameBytesAreTheRequest : Obligations.FrameBytesAreTheRequest := by
  intro c r body a s wf written running free address
  obtain ⟨f, rfl, name, rfl, good⟩ : ∃ f : Frame, f.address = a ∧ f.name = r.code ∧ f.body = body ∧
      crc16 (frameBytes f.address f.name f.body) = f.crc := 
    ⟨⟨a, r.code, body, crc16 (frameBytes a r.code body)⟩, rfl, rfl, rfl, by dsimp only⟩
  rw [← name, feed_wireFrame running free (length_body wf written) good]
  exact checkFrame_of_request address good.symm (encode_isSome written) (name ▸ decode_encode wf written)

/-- Settles O6: the receiver byte by byte, and the rows of R162 in their order. -/
theorem framesAreReceivedAndChecked : Obligations.FramesAreReceivedAndChecked := by
  refine ⟨fun l b s running => ⟨fun busy => ⟨?_, ?_⟩, fun free => ?_, ?_, fun free hunt other => ?_,
      fun free hunt start => ?_, fun a free inside bad => ?_, fun a n taken free inside low high part => ?_,
      fun a n taken free inside low high last => ?_⟩,
    fun l f s running free => ⟨fun lost => ?_, fun ours good unknown => ?_,
      fun r ours good line name => ⟨fun unfit => ?_, fun fit => ?_, fun c written wf => ?_⟩⟩⟩
  · rw [exec, execLineByteReceived, whenRunning_running running, if_pos (replying_iff.mpr busy)]
  · rw [exec, execReplyEnd, takeEvent_running running, if_pos (replying_iff.mpr busy)]
  · rw [exec, execReplyEnd, takeEvent_running running, if_neg (not_replying free)]
  · rw [exec, execFrameGap, takeEvent_running running]
    rfl
  · rw [exec_lineByteReceived_hunt running free hunt, if_neg other]
  · rw [exec_lineByteReceived_hunt running free hunt, if_pos start, setReceiver_eq free]
  · rw [exec_lineByteReceived_frame running free inside, ← setReceiver_eq free .hunt]
    exact frameByte_of_badLength rfl bad
  · rw [exec_lineByteReceived_frame running free inside, frameByte_of_part, setReceiver_eq free]
    · rfl
    · intro _
      simp
      omega
  · obtain ⟨address, bytes⟩ := bytes_of_frameOf (a := a) (n := n) (rest := taken ++ [b]) (by simp; omega) rfl
    refine ⟨_, address, bytes, ?_⟩
    rw [exec_lineByteReceived_frame running free inside, exec_frameRejected running free]
    exact frameByte_of_complete (by simp; omega)
  · rw [exec_frameRejected running free]
    exact checkFrame_of_lost (by rwa [address_setReceiver])
  · rw [exec_frameRejected running free]
    exact checkFrame_of_unknownName (by rwa [address_setReceiver]) good (decode_unknownName unknown)
  · rw [exec_frameRejected running free]
    exact checkFrame_of_wrongSize (by rwa [address_setReceiver]) good (line ▸ name ▸ decode_wrongSize unfit)
  · obtain ⟨c, read⟩ := Option.isSome_iff_exists.mp (parse_isSome_iff.mpr fit)
    refine ⟨c, encode_parse read, ?_⟩
    rw [exec_frameRejected running free]
    exact checkFrame_of_request (by rwa [address_setReceiver]) good (encode_isSome (encode_parse read))
      (line ▸ name ▸ decode_request read)
  · rw [exec_frameRejected running free]
    exact checkFrame_of_request (by rwa [address_setReceiver]) good (encode_isSome written)
      (line ▸ name ▸ decode_encode wf written)

end Sys2Proof.LineProofs
end

section
/-! PROOF. Every request is one owner's answer on its own line, which changes neither line itself; and so it is answered there by
one frame, or lost (R158, R159, R161, R163, R164). -/

namespace Sys2Proof.LineProofs

open Sys2Proof.Machine Sys2Proof.Safety Sys2Proof.CustodyProofs

/-! ## Owners and their answers -/

/-- What taking and sending a reply reads: both lines, the strap that gives the address, and RESET_N (R158, R163, R183). -/
def linesView (s : State) : LineState × LineState × Straps × Bool :=
  (s.ls.branch, s.ls.panel, s.ss.straps, s.resetHeld)

theorem line_congr {s t : State} (h : linesView t = linesView s) (l : Line) : t.line l = s.line l := by
  cases l
  · exact congrArg (fun v => v.1) h
  · exact congrArg (fun v => v.2.1) h

theorem address_congr {s t : State} (h : linesView t = linesView s) (l : Line) : t.address l = s.address l := by
  have straps : t.ss.straps = s.ss.straps := congrArg (fun v => v.2.2.1) h
  cases l
  · rw [State.address, State.address, straps]
  · rfl

theorem resetHeld_congr {s t : State} (h : linesView t = linesView s) : t.resetHeld = s.resetHeld :=
  congrArg (fun v => v.2.2.2) h

/-- An owner leaves the lines alone, and a refusal carries no data (R163, R164). -/
def Answers (s : State) (p : State × Answer) : Prop :=
  linesView p.1 = linesView s ∧ (p.2.word ≠ .ok → p.2.word ≠ .late → p.2.word ≠ .none → p.2.data = [])

theorem answers_refuse (s : State) (w : OutcomeWord) : Answers s (refuse s w) := ⟨rfl, fun _ _ _ => rfl⟩

/-- Where a condition refuses, the rest is answered where it does not hold. -/
theorem answers_unless {s : State} {c : Prop} [Decidable c] {w : OutcomeWord} {p : State × Answer} (h : Answers s p) :
    Answers s (if c then refuse s w else p) := by
  split
  · exact answers_refuse ..
  · exact h

theorem answers_ok {s t : State} (same : linesView t = linesView s) (data : List Byte) : Answers s (ok t data) :=
  ⟨same, fun notOk => absurd rfl notOk⟩

theorem answers_statusAnswer {s t u : State} (same : linesView t = linesView s) : Answers s (t, u.statusAnswer) := by
  have word : u.statusAnswer.word = .none ∨ u.statusAnswer.word = .ok := ite_eq_or_eq ..
  exact ⟨same, fun notOk _ notNone => (word.elim notNone notOk).elim⟩

theorem Answers.trans {s t : State} {p : State × Answer} (h : Answers t p) (same : linesView t = linesView s) :
    Answers s p :=
  ⟨h.1.trans same, h.2⟩

/-! ## Each request's answer -/

theorem answers_advise (s : State) (tag : Tag) (a : Advice) : Answers s (s.advise tag a) := by
  unfold State.advise
  split
  next =>
    split
    · exact answers_ok rfl _
    · exact answers_refuse ..
  next r _ =>
    cases r.state with
    | advised | missing => exact answers_ok rfl _
    | intake | staged | overdue => exact answers_refuse ..
    | grace =>
      dsimp only
      split
      · exact answers_ok (by simp [linesView]) _
      · exact answers_refuse ..
    | held =>
      refine answers_unless ?_
      split
      · exact ⟨by simp [linesView], fun _ notLate => absurd rfl notLate⟩
      · exact answers_refuse ..

theorem answers_withdrawAdvice (s : State) (tag : Tag) (wanted : RecState) : Answers s (s.withdrawAdvice tag wanted) := by
  refine answers_unless ?_
  split
  · exact answers_refuse ..
  · exact answers_unless (answers_unless (answers_ok (by simp [linesView]) _))

theorem answers_confirm (s : State) (n counted : Nat) (ids : List (BitVec 24)) : Answers s (s.confirm n counted ids) := by
  refine answers_unless ?_
  split
  · exact answers_refuse ..
  next r _ =>
    have word : (if r.state = .overdue then OutcomeWord.late else .ok) = .late ∨
        (if r.state = .overdue then OutcomeWord.late else .ok) = .ok := ite_eq_or_eq ..
    refine answers_unless (answers_unless (answers_unless ⟨by simp [linesView], fun notOk notLate _ => ?_⟩))
    exact (word.elim notLate notOk).elim

theorem answers_credential (s : State) (id : BitVec 24) : Answers s (s.credential id) := by
  unfold State.credential
  split
  · exact answers_refuse ..
  · exact answers_unless (answers_unless (answers_ok rfl _))
  · exact answers_unless (answers_unless (answers_unless (answers_ok rfl _)))
  · exact answers_refuse ..

theorem linesView_closeSession (s : State) : linesView s.closeSession = linesView s := by simp [linesView]

theorem linesView_afterPermit {s t : State} (same : linesView t = linesView s) :
    linesView (s.afterPermit t) = linesView s := by
  unfold State.afterPermit
  split
  · exact (linesView_closeSession t).trans same
  · exact same

theorem linesView_afterStaging (s : State) (q : Fin 21) : linesView (s.afterStaging q) = linesView s := by
  unfold State.afterStaging
  split
  · simp [linesView]
  · rfl

theorem linesView_settleJam (s : State) (r : Record) (d : Disposition) : linesView (s.settleJam r d) = linesView s := by
  unfold State.settleJam
  split <;> simp [linesView]

theorem linesView_leaveJammed (s : State) : linesView s.leaveJammed = linesView s := by
  simp [linesView, State.leaveJammed, State.clearReadings]

/-- A panel request restarts the idle timer first (R141). -/
theorem answers_panel {s : State} {p : State × Answer} (h : Answers s.restartIdle p) : Answers s p :=
  h.trans (by simp [linesView])

/-- Every request is its owner's answer on its own line, under its own name (R163, R164, R168). -/
theorem exec_eq_takeRequest {c : Instr} {r : ReqName} {body : List Byte} (h : c.encode = some (r, body)) :
    ∃ owner, (∀ s, exec c s = takeRequest s r.line r.code owner) ∧ ∀ s, Answers s (owner s) := by
  cases c <;> cases h
  all_goals refine ⟨_, fun s => rfl, fun s => ?_⟩
  all_goals beta_reduce
  case advs =>
    split
    · exact answers_refuse ..
    · exact answers_advise ..
  case wdrw | retr => exact answers_withdrawAdvice ..
  case cnfm => exact answers_confirm ..
  case nopn | ncls =>
    split
    · exact answers_refuse ..
    · exact answers_ok (by simp [linesView]) _
  case read | ftag =>
    refine answers_unless ?_
    split
    · exact answers_refuse ..
    · exact answers_ok rfl _
  case lsta | lpkt =>
    split
    · exact answers_refuse ..
    · exact answers_unless (answers_ok rfl _)
  case pkts =>
    split
    · exact answers_refuse ..
    · exact answers_ok rfl _
  case lcus | time => exact answers_unless (answers_ok rfl _)
  case wipe => exact answers_unless (answers_ok (by simp [linesView, State.wipe]) _)
  case ntot | timwRead => exact answers_ok rfl _
  case stat => exact answers_statusAnswer rfl
  case clrs =>
    split
    · split
      · exact answers_refuse ..
      · exact answers_statusAnswer rfl
    · exact answers_refuse ..
  case wndw =>
    split
    · exact answers_refuse ..
    · refine answers_ok (linesView_afterPermit ?_) _
      rfl
  case jamc =>
    split
    · exact answers_refuse ..
    refine answers_unless (answers_unless ?_)
    split
    · exact answers_refuse ..
    · exact answers_unless (answers_ok ((linesView_leaveJammed _).trans (linesView_settleJam ..)) _)
  case ackl => exact answers_unless (answers_unless (answers_ok (by simp [linesView]) _))
  case home => exact answers_unless (answers_unless (answers_unless (answers_ok (by simp [linesView]) _)))
  -- the requests that write a setting are BUSY in SAVING (R181)
  case pcap | tolw | polw | timw =>
    refine answers_unless ?_
    split
    · exact answers_refuse ..
    · exact answers_ok rfl _
  case rngw =>
    refine answers_unless ?_
    split
    · exact answers_ok rfl _
    · exact answers_refuse ..
  case rnga | genr => exact answers_unless (answers_ok (by simp [linesView, State.chooseRouting]) _)
  case save => exact answers_unless (answers_ok rfl _)
  case denw =>
    refine answers_unless ?_
    split
    · split
      · exact answers_ok rfl _
      · exact answers_refuse ..
    · exact answers_refuse ..
  case rost =>
    refine answers_unless (answers_unless ?_)
    split
    · exact answers_refuse ..
    · exact answers_ok rfl _
  case cred => exact answers_panel (answers_credential ..)
  case prtv =>
    refine answers_panel ?_
    split
    · exact answers_refuse ..
    · exact answers_unless (answers_unless (answers_unless (answers_ok (by simp [linesView]) _)))
  case notg =>
    refine answers_panel (answers_unless (answers_unless ?_))
    split
    · exact answers_refuse ..
    split
    · exact answers_refuse ..
    · exact answers_ok ((linesView_afterStaging ..).trans (by simp [linesView])) _
  case pcls => exact answers_panel (answers_unless (answers_ok (linesView_closeSession _) _))

/-! ## Replies and lost requests -/

theorem length_wordBytes (w : OutcomeWord) : w.bytes.length = 4 := by cases w <;> rfl

/-- The bytes of a reply's frame (R159, R161, R164). -/
theorem wireFrame_reply (address : Byte) (name : BitVec 32) (a : Answer) :
    let covered := [address, BitVec.ofNat 8 (8 + a.data.length)] ++ be 4 name.toNat ++ ascii (wordText a.word) ++ a.data
    wireFrame address name (a.word.bytes ++ a.data) = [0xA5#8] ++ covered ++ be 2 (crc16 covered).toNat := by
  have covered : frameBytes address name (a.word.bytes ++ a.data) =
      [address, BitVec.ofNat 8 (8 + a.data.length)] ++ be 4 name.toNat ++ ascii (wordText a.word) ++ a.data := by
    have size : (a.word.bytes ++ a.data).length + 4 = 8 + a.data.length := by
      rw [List.length_append, length_wordBytes]
      omega
    rw [frameBytes, size, outcomeWord_bytes]
    simp
  rw [wireFrame, covered]
  rfl

/-- A line that takes requests has an address and no reply under way (R158, R163, R183). -/
theorem taking_of_idle {s : State} {l : Line} (idle : match l with | .branch => branchIdle s | .panel => panelIdle s) :
    s.resetHeld = false ∧ s.listens l = true ∧ ∃ address, s.address l = some address := by
  cases l with
  | branch => exact ⟨idle.1, listens_branch idle, _, if_neg idle.2.2⟩
  | panel => exact ⟨idle.1, listens_panel idle, _, rfl⟩

theorem not_listens_of_lost {s : State} {l : Line}
    (lost : (s.line l).reply.isSome = true ∨ l = .branch ∧ s.ss.straps.address = 0#5) : ¬ s.listens l = true := by
  obtain busy | ⟨rfl, zero⟩ := lost
  · simp [State.listens, State.replying, busy]
  · simp [State.listens, State.address, zero]

/-- A reply on one line leaves the other as it was (R163). -/
theorem otherLine_answer {s t : State} (same : linesView t = linesView s) (l : Line) (name : BitVec 32) (a : Answer) :
    match l with
    | .branch => (t.answer l name a).ls.panel = s.ls.panel
    | .panel => (t.answer l name a).ls.branch = s.ls.branch := by
  cases l
  · exact line_congr same .panel
  · exact line_congr same .branch

theorem replyFrame_eq_none {s : State} {l : Line} (h : (s.line l).reply = none ∨ s.resetHeld = true) :
    s.replyFrame l = none := by
  unfold State.replyFrame
  split
  · rfl
  next running => rw [h.resolve_right running]

/-- Settles O3: a request is its owner's answer, which its line begins to send, or is lost. -/
theorem requestsAreAnsweredOrLost : Obligations.RequestsAreAnsweredOrLost := by
  refine ⟨fun c r body s written idle => ?_, fun c r body s written lost => ?_, fun l s h => replyFrame_eq_none h⟩
  · obtain ⟨owner, taken, answers⟩ := exec_eq_takeRequest written
    obtain ⟨running, listens, address, addressed⟩ := taking_of_idle idle
    obtain ⟨same, plain⟩ := answers s
    refine ⟨(owner s).1.answer r.line r.code (owner s).2, (owner s).2, address, ?_, State.setLine_line ..,
      otherLine_answer same .., plain, addressed, ?_⟩
    · rw [taken, takeRequest_eq, if_pos ⟨running, listens⟩]
    · rw [replyFrame_answer ((resetHeld_congr same).trans running) ((address_congr same _).trans addressed),
        wireFrame_reply]
  · obtain ⟨owner, taken, -⟩ := exec_eq_takeRequest written
    rw [taken, takeRequest_eq, if_neg fun h => not_listens_of_lost lost h.2]

end Sys2Proof.LineProofs
end

section
/-! PROOF. The status flags and the clock: STAT, CLRS, TIME and the clock's tick (R171 to R175). -/

namespace Sys2Proof.LineProofs

open Sys2Proof.Machine Sys2Proof.Safety Sys2Proof.CustodyProofs Sys2Proof.SettingsProofs

/-! ## STAT -/

theorem statusAnswer_word_of_set {s : State} {i : Fin 16} (set : s.ls.flags[i].set = true) : s.statusAnswer.word = .ok := by
  have mem : i ∈ setPlaces s.ls.flags := List.mem_filter.mpr ⟨List.mem_finRange i, set⟩
  exact if_neg fun empty => List.ne_nil_of_mem mem (List.isEmpty_iff.mp empty)

theorem statusAnswer_word_of_clear {s : State} (clear : ∀ i : Fin 16, s.ls.flags[i].set = false) :
    s.statusAnswer.word = .none := by
  have empty : setPlaces s.ls.flags = [] := List.filter_eq_nil_iff.mpr fun i _ => Bool.eq_false_iff.mp (clear i)
  exact if_pos (List.isEmpty_iff.mpr empty)

/-- Settles O9: the answer is OK or NONE by the flags that stand set, and its data lists them. -/
theorem statReadsTheFlags : Obligations.StatReadsTheFlags := by
  intro s idle set data
  have answered : exec .stat s = .next (branchReply s .stat s.statusAnswer.word data) :=
    takeRequest_branch idle .stat fun s => (s, s.statusAnswer)
  refine ⟨fun ⟨i, set⟩ => ?_, fun clear => ?_⟩
  · rw [answered, statusAnswer_word_of_set set]
  · rw [answered, statusAnswer_word_of_clear clear]

/-! ## CLRS -/

theorem flagPlaceOf_eq_some_iff {b : BitVec 8} {i : Fin 16} : flagPlaceOf b = some i ↔ b.toNat = i.val + 1 := by
  unfold flagPlaceOf
  split
  next low =>
    split
    next zero => simp [zero]
    next nonzero =>
      have : b.toNat ≠ 0 := fun h => nonzero (BitVec.eq_of_toNat_eq h)
      rw [Option.some.injEq, Fin.ext_iff]
      dsimp only
      omega
  next high => exact iff_of_false nofun (by omega)

theorem flagPlaceOf_eq_none {b : BitVec 8} (out : b.toNat = 0 ∨ 16 < b.toNat) : flagPlaceOf b = none := by
  refine Option.eq_none_iff_forall_ne_some.mpr fun i read => ?_
  have := flagPlaceOf_eq_some_iff.mp read
  omega

/-- Codes in range are all read as places (R173). -/
theorem places_of_codes {codes : List (BitVec 8)} (range : ∀ c ∈ codes, c.toNat ≠ 0 ∧ c.toNat ≤ 16) :
    ∃ places, allSome (codes.map flagPlaceOf) = some places := by
  refine ⟨codes.map fun c => Fin.ofNat 16 (c.toNat - 1), ?_⟩
  rw [allSome_eq_some_iff, List.map_map]
  refine List.map_congr_left fun c mem => flagPlaceOf_eq_some_iff.mpr ?_
  have := range c mem
  simp only [Fin.ofNat]
  omega

/-- Exactly the flags at the places named are clear, with a count of 0 (R171, R173). -/
theorem getElem_clearFlags (flags : Vector FlagCell 16) (places : List (Fin 16)) (i : Fin 16) :
    (clearFlags flags places)[i] = if i ∈ places then {} else flags[i] := by
  induction places generalizing flags with
  | nil => simp [clearFlags]
  | cons p places ih =>
    have rest := ih (flags.set p.val {})
    rw [clearFlags] at rest ⊢
    rw [List.foldl_cons, rest]
    by_cases same : i = p
    · simp [same]
    · simp [same, Fin.val_ne_of_ne (Ne.symm same)]

/-- The flags named by codes in range, cleared (R173). -/
theorem clearFlags_of_codes {flags : Vector FlagCell 16} {codes : List (BitVec 8)} {places : List (Fin 16)}
    (read : allSome (codes.map flagPlaceOf) = some places) : clearFlags flags places =
      Vector.ofFn fun i => if ∃ c ∈ codes, c.toNat = i.val + 1 then { set := false, count := 0 } else flags[i] := by
  have named (i : Fin 16) : i ∈ places ↔ ∃ c ∈ codes, c.toNat = i.val + 1 := by
    simp only [← flagPlaceOf_eq_some_iff]
    rw [← List.mem_map, allSome_eq_some_iff.mp read]
    simp
  apply Vector.ext
  intro i h
  have cell := getElem_clearFlags flags places ⟨i, h⟩
  simp only [named] at cell
  simpa using cell

/-- Settles O10: one code out of range refuses the whole, and otherwise the flags named are cleared in one event. -/
theorem clrsClearsTheFlagsNamed : Obligations.ClrsClearsTheFlagsNamed := by
  intro codes s idle bad
  simp only [exec, execClrs, takeRequest_branch idle]
  refine ⟨fun out => ?_, fun good => ?_⟩
  · split
    next length =>
      obtain ⟨c, mem, out⟩ := (out.resolve_left (by omega)).resolve_left (by omega)
      simp only [allSome_map_eq_none mem (flagPlaceOf_eq_none out), refuse]
    next => rfl
  · simp only [bad, not_or, not_exists, not_and, Nat.not_lt] at good
    obtain ⟨nonempty, sixteen, range⟩ := good
    obtain ⟨places, read⟩ := places_of_codes range
    rw [if_pos ⟨by omega, sixteen⟩, read]
    simp only [clearFlags_of_codes read]
    rfl

/-! ## TIME -/

/-- Settles O11: the clock set, and counted on. -/
theorem clockIsSetAndCounts : Obligations.ClockIsSetAndCounts := by
  intro s
  refine ⟨fun seconds idle late => ?_, fun seconds idle early => ?_, fun c running set early => ?_, fun running set => ?_,
    fun running unset => ?_⟩
  · simp only [exec, execTime, takeRequest_branch idle, if_pos late, refuse]
  · simp only [exec, execTime, takeRequest_branch idle, if_neg (Nat.not_lt.mpr early), ok]
    rfl
  · rw [exec, execClockTick, takeEvent_running running, set, Option.map_some, if_neg (Nat.not_le.mpr early)]
    rfl
  · rw [exec, execClockTick, takeEvent_running running, set, Option.map_some, if_pos le_rfl]
    rfl
  · rw [exec, execClockTick, takeEvent_running running, unset, Option.map_none, State.setClock, ← unset]

end Sys2Proof.LineProofs
end

section
/-! PROOF. TIMW in both its forms, and SAVE with the settings it keeps from being written meanwhile (R174, R180, R181). -/

namespace Sys2Proof.SettingsProofs

open Sys2Proof.Machine Sys2Proof.Safety Sys2Proof.CustodyProofs

/-! ## SAVE -/

/-- A request that writes a setting, with a save under way (R181). -/
theorem writeSetting_saving {s : State} (idle : branchIdle s) (saving : s.ss.saving.isSome = true) (r : ReqName)
    (owner : State → State × Answer) : writeSetting s r.code owner = .next (branchReply s r .busy []) := by
  rw [writeSetting_branch idle, if_pos (show s.isSaving = true from saving)]

/-- Every request that writes a setting asks first whether a save is under way (R181). -/
theorem exec_eq_writeSetting {c : Instr} {r : ReqName} (h : writesSetting c = some r) (s : State) :
    ∃ owner, exec c s = writeSetting s r.code owner := by
  cases c <;> cases h <;> rw [exec] <;> exact ⟨_, rfl⟩

/-- Settles O24: the owner of SAVE takes the copy, and the guard that all the writing requests share refuses them. -/
theorem savingIsExclusive : Obligations.SavingIsExclusive := by
  refine ⟨fun s idle free => ?_, fun c r s writes idle saving => ?_⟩
  · rw [exec, execSave, writeSetting_free idle free]
    rfl
  · obtain ⟨owner, guarded⟩ := exec_eq_writeSetting writes s
    rw [guarded, writeSetting_saving idle saving]

/-! ## TIMW -/

/-- A value as it is, or the nearer end of its range (00_scope.md, R180). -/
def nearest (lo hi x : Nat) : Nat := if x < lo then lo else if hi < x then hi else x

theorem clamp_eq_nearest {lo hi : Nat} (h : lo ≤ hi) (x : Nat) : clamp lo hi x = nearest lo hi x := by
  unfold clamp nearest
  (repeat' split) <;> omega

theorem flagOf_eq_none {b : Byte} (h : 1 < b.toNat) : flagOf b = none := by
  refine Option.eq_none_iff_forall_ne_some.mpr fun x read => ?_
  have := yesNo_toNat_le x
  rw [← flagOf_eq_some_iff.mp read] at this
  omega

/-- What TIMW stores: the options as they are carried, and the intervals brought into their ranges (R180). -/
theorem timersOf_eq_some_iff {f : TimerField} {t : TimerValues} : timersOf f = some t ↔
    f.prePosition = yesNo t.prePosition ∧ f.weakOption = yesNo t.weakOption ∧ t.grace = clamp 0 3600 f.grace.toNat ∧
      t.handover = clamp 1 240 f.handover.toNat ∧ t.pairing = clamp 10 300 f.pairing.toNat ∧
      t.idle = clamp 60 3600 f.idle.toNat ∧ t.step = clamp 50 1000 f.step.toNat ∧
      t.settle = clamp 0 2000 f.settle.toNat ∧ t.enables = f.enables := by
  unfold timersOf
  simp only [Option.bind_eq_bind, Option.bind_eq_some_iff, flagOf_eq_some_iff, Option.some.injEq]
  constructor
  · rintro ⟨prePosition, pre, weakOption, weak, rfl⟩
    exact ⟨pre, weak, rfl, rfl, rfl, rfl, rfl, rfl, rfl⟩
  · rintro ⟨pre, weak, grace, handover, pairing, idle, step, settle, enables⟩
    refine ⟨_, pre, _, weak, ?_⟩
    rw [← grace, ← handover, ← pairing, ← idle, ← step, ← settle, ← enables]

theorem timersOf_of_bad {f : TimerField} (bad : 1 < f.prePosition.toNat ∨ 1 < f.weakOption.toNat) :
    timersOf f = none := by
  refine Option.eq_none_iff_forall_ne_some.mpr fun t stored => ?_
  obtain ⟨pre, weak, -⟩ := timersOf_eq_some_iff.mp stored
  rw [pre, weak] at bad
  have := yesNo_toNat_le t.prePosition
  have := yesNo_toNat_le t.weakOption
  omega

/-- The timers that the fields in range store (R180). -/
def storedTimers (f : TimerField) : TimerValues where
  grace := nearest 0 3600 f.grace.toNat
  handover := nearest 1 240 f.handover.toNat
  pairing := nearest 10 300 f.pairing.toNat
  idle := nearest 60 3600 f.idle.toNat
  step := nearest 50 1000 f.step.toNat
  settle := nearest 0 2000 f.settle.toNat
  prePosition := f.prePosition == 1#8
  weakOption := f.weakOption == 1#8
  enables := f.enables

theorem timersOf_of_good {f : TimerField} (pre : f.prePosition.toNat ≤ 1) (weak : f.weakOption.toNat ≤ 1) :
    timersOf f = some (storedTimers f) := by
  simp only [timersOf_eq_some_iff, storedTimers, clamp_eq_nearest, Nat.zero_le, Nat.reduceLeDiff, and_true]
  exact ⟨eq_yesNo_of_le pre, eq_yesNo_of_le weak⟩

/-- Settles O23: the fields are refused or read as the timers that they store, and either form answers with what
stands. -/
theorem timwWritesAndReads : Obligations.TimwWritesAndReads := by
  refine fun s idle => ⟨?_, fun f free bad => ?_, fun f free pre weak => ?_⟩
  · rw [exec, execTimwRead, takeRequest_branch idle]
    rfl
  · simp only [exec, execTimw, writeSetting_free idle free, timersOf_of_bad bad, refuse]
  · simp only [exec, execTimw, writeSetting_free idle free, timersOf_of_good pre weak, ok]
    rfl

end Sys2Proof.SettingsProofs
end

section
/-! PROOF. What the EEPROM holds after the writes of a save, and the end of a save (R177, R181, R182). -/

namespace Sys2Proof.SettingsProofs

open Sys2Proof.Machine Sys2Proof.Safety Sys2Proof.CustodyProofs

/-! ## Writes one after the other -/

/-- What stands at an address where every write, if any, carries one byte. -/
theorem read_writeAll {m : Memory} {ws : List (Nat × Byte)} {a : Nat} {b : Byte} (canonical : m.wf = true)
    (inside : ∀ w ∈ ws, w.1 < Memory.size) (agree : ∀ w ∈ ws, w.1 = a → w.2 = b)
    (held : m.read a = b ∨ ∃ w ∈ ws, w.1 = a) : (m.writeAll ws).read a = b := by
  induction ws generalizing m with
  | nil => exact held.resolve_right (by simp)
  | cons w ws ih =>
    refine ih (Memory.wf_write m canonical w.1 w.2 (inside w (by simp))) (fun x hx => inside x (by simp [hx]))
      (fun x hx => agree x (by simp [hx])) ?_
    rw [Memory.read_write m canonical]
    split
    next here => exact .inl (agree w (by simp) here)
    next elsewhere => simpa [elsewhere] using held

/-- An address that no write names stays as it was. -/
theorem read_writeAll_of_unnamed {m : Memory} {ws : List (Nat × Byte)} {a : Nat} (canonical : m.wf = true)
    (inside : ∀ w ∈ ws, w.1 < Memory.size) (unnamed : ∀ w ∈ ws, w.1 ≠ a) : (m.writeAll ws).read a = m.read a :=
  read_writeAll canonical inside (fun w hw here => absurd here (unnamed w hw)) (.inl rfl)

theorem writeAll_nil (m : Memory) : m.writeAll [] = m := rfl

theorem writeAll_concat (m : Memory) (ws : List (Nat × Byte)) (w : Nat × Byte) :
    m.writeAll (ws ++ [w]) = (m.writeAll ws).write w.1 w.2 := List.foldl_concat ..

theorem mem_of_lookup_byte {l : List (Nat × Byte)} {a : Nat} {b : Byte} (h : l.lookup a = some b) : (a, b) ∈ l := by
  obtain ⟨before, after, rfl, -⟩ := List.lookup_eq_some_iff.mp h
  simp

/-- Writes at distinct addresses: each byte stands where it was written, and the others as they were. -/
theorem read_writeAll_of_nodup {m : Memory} {ws : List (Nat × Byte)} (canonical : m.wf = true)
    (inside : ∀ w ∈ ws, w.1 < Memory.size) (distinct : (ws.map Prod.fst).Nodup) (a : Nat) :
    (m.writeAll ws).read a = match ws.lookup a with | some b => b | none => m.read a := by
  split
  next b found =>
    have mem := mem_of_lookup_byte found
    refine read_writeAll canonical inside (fun w hw here => ?_) (.inr ⟨_, mem, rfl⟩)
    exact congrArg Prod.snd (List.inj_on_of_nodup_map distinct hw mem here)
  next absent =>
    refine read_writeAll_of_unnamed canonical inside fun w hw here => ?_
    simpa [here] using List.lookup_eq_none_iff.mp absent w hw

/-! ## The writes of a save -/

/-- The writes of a save before the last: the format byte as 0, and every other byte (R181). -/
def openingWrites (copy : List Byte) : List (Nat × Byte) :=
  (0, 0#8) :: (List.range (imageLength - 1)).map fun i => (i + 1, byteAt copy (i + 1))

theorem saveWrites_eq (copy : List Byte) : saveWrites copy = openingWrites copy ++ [(0, 1#8)] := by
  simp [saveWrites, openingWrites]

theorem length_openingWrites (copy : List Byte) : (openingWrites copy).length = 435 := by
  simp [openingWrites, imageLength]

theorem mem_openingWrites {copy : List Byte} {w : Nat × Byte} :
    w ∈ openingWrites copy ↔ w = (0, 0#8) ∨ ∃ i < 434, w = (i + 1, byteAt copy (i + 1)) := by
  simp [openingWrites, imageLength, eq_comm]

theorem openingWrites_inside {copy : List Byte} {w : Nat × Byte} (h : w ∈ openingWrites copy) :
    w.1 < Memory.size := by
  obtain rfl | ⟨i, hi, rfl⟩ := mem_openingWrites.mp h
  · decide
  · simp only [Memory.size]
    omega

/-- With the first write made and the last not, the format byte is 0 (R182). -/
theorem read_zero_of_interrupted {m : Memory} (canonical : m.wf = true) (copy : List Byte) {n : Nat} (first : 1 ≤ n)
    (last : n ≤ 435) : (m.writeAll ((saveWrites copy).take n)).read 0 = 0#8 := by
  obtain ⟨k, rfl⟩ : ∃ k, n = k + 1 := ⟨n - 1, by omega⟩
  rw [saveWrites_eq, List.take_append_of_le_length (by rw [length_openingWrites]; exact last)]
  refine read_writeAll canonical (fun w hw => openingWrites_inside (List.mem_of_mem_take hw)) (fun w hw here => ?_)
    (.inr ⟨(0, 0#8), by simp [openingWrites], rfl⟩)
  obtain rfl | ⟨i, -, rfl⟩ := mem_openingWrites.mp (List.mem_of_mem_take hw)
  · rfl
  · cases here

/-- After all the writes of a save the EEPROM holds the copy, and what it held past its end (R177, R181). -/
theorem read_saveWrites {m : Memory} (canonical : m.wf = true) {copy : List Byte} (format : copy.head? = some 1#8)
    (a : Nat) : (m.writeAll (saveWrites copy)).read a = if a < 435 then copy.getD a 0 else m.read a := by
  have inside := fun w (hw : w ∈ openingWrites copy) => openingWrites_inside hw
  rw [saveWrites_eq, writeAll_concat, Memory.read_write _ (Memory.wf_writeAll m canonical _ inside)]
  by_cases zero : 0 = a
  · subst zero
    rw [if_pos rfl, if_pos (by decide), List.getD_eq_getElem?_getD, ← List.head?_eq_getElem?, format]
    rfl
  rw [if_neg zero]
  split
  next here =>
    obtain ⟨k, rfl⟩ : ∃ k, a = k + 1 := ⟨a - 1, by omega⟩
    refine read_writeAll canonical inside (fun w hw named => ?_)
      (.inr ⟨_, mem_openingWrites.mpr (.inr ⟨k, by omega, rfl⟩), rfl⟩)
    obtain rfl | ⟨i, -, rfl⟩ := mem_openingWrites.mp hw
    · cases named
    · obtain rfl : i = k := Nat.succ.inj named
      exact (List.getD_eq_getElem?_getD ..).symm
  next past =>
    refine read_writeAll_of_unnamed canonical inside fun w hw => ?_
    obtain rfl | ⟨i, hi, rfl⟩ := mem_openingWrites.mp hw
    · exact zero
    · simp only [ne_eq]
      omega

/-- The bytes that are read back are the copy when each is the copy's (R182). -/
theorem readMany_eq_iff {m : Memory} {bytes : List Byte} {n : Nat} (length : bytes.length = n) :
    m.readMany 0 n = bytes ↔ ∀ a < n, m.read a = bytes.getD a 0 := by
  subst length
  simp only [Memory.readMany, Nat.zero_add, List.ext_getElem_iff, List.length_map, List.length_range, true_and,
    List.getElem_map, List.getElem_range]
  exact ⟨fun same a ha => by rw [same a ha ha, List.getD_eq_getElem _ _ ha],
    fun same a _ ha => by rw [same a ha, List.getD_eq_getElem _ _ ha]⟩

/-! ## The end of a save -/

/-- The bytes that are held otherwise than written are those of the image that the command carries (log 13). -/
theorem savedMemory_of_inside (m : Memory) (copy : List Byte) {differs : List (Nat × Byte)}
    (inside : ∀ d ∈ differs, d.1 < imageLength) :
    savedMemory m copy differs = (m.writeAll (saveWrites copy)).writeAll differs := by
  rw [savedMemory, List.filter_eq_self.mpr fun d hd => decide_eq_true (inside d hd)]

theorem savedMemory_nil (m : Memory) (copy : List Byte) : savedMemory m copy [] = m.writeAll (saveWrites copy) := by
  rw [savedMemory, List.filter_nil, writeAll_nil]

/-- The end of a save writes the EEPROM, ends SAVING and raises one flag (R182). -/
theorem exec_saveCompletion {s : State} (running : s.resetHeld = false) {copy : List Byte}
    (saving : s.ss.saving = some copy) (answers : Bool) (differs : List (Nat × Byte)) {m : Memory} (stored : savedMemory s.ss.eeprom copy differs = m) :
    exec (.saveCompletion answers differs) s =
      .next (raised { s with ss := { s.ss with saving := none, eeprom := m } }
        (if answers = true ∧ m.readMany 0 435 = copy then .saveDone else .settingsFault)) := by
  rw [exec, execSaveCompletion, takeEvent_running running, State.completeSave, saving]
  subst stored
  simp only [Bool.and_eq_true, beq_iff_eq, imageLength]
  split <;> rfl

/-- Settles O25: all the writes made leave the copy, and the bytes that differ otherwise show when the image is read
back. -/
theorem saveCompletes : Obligations.SaveCompletes := by
  refine fun s running => ⟨fun free answers differs => ?_, fun copy saving whole format canonical => ?_⟩
  · rw [exec, execSaveCompletion, takeEvent_running running, State.completeSave, free]
  have held := read_saveWrites canonical format
  have written : (Memory.writeAll s.ss.eeprom (saveWrites copy)).wf = true :=
    savedMemory_nil s.ss.eeprom copy ▸ savedMemory_wf _ canonical copy []
  refine ⟨Memory.writeAll s.ss.eeprom (saveWrites copy), held, ?_, ?_, fun answers differs some_ distinct wrong => ?_⟩
  · rw [exec_saveCompletion running saving true [] (savedMemory_nil ..),
      if_pos ⟨rfl, (readMany_eq_iff whole).mpr fun a ha => (held a).trans (if_pos ha)⟩]
  · rw [exec_saveCompletion running saving false [] (savedMemory_nil ..), if_neg (fun h => Bool.noConfusion h.1)]
  · have inside := fun d hd => (wrong d hd).1
    have part := fun d hd => (inside d hd).trans (by decide : 435 < Memory.size)
    refine ⟨_, read_writeAll_of_nodup written part distinct, ?_⟩
    obtain ⟨d, hd⟩ := List.exists_mem_of_ne_nil differs some_
    have stands := read_writeAll written part
      (fun w hw here => congrArg Prod.snd (List.inj_on_of_nodup_map distinct hw hd here)) (.inr ⟨d, hd, rfl⟩)
    rw [exec_saveCompletion running saving answers differs (savedMemory_of_inside _ copy inside), if_neg]
    exact fun good => (wrong d hd).2 (stands.symm.trans ((readMany_eq_iff whole).mp good.2 d.1 (inside d hd)))

end Sys2Proof.SettingsProofs
end

section
/-! PROOF. Where the parts of a settings image stand, and what each is read as (R177, R178). -/

namespace Sys2Proof.SettingsProofs

open Sys2Proof.Machine Sys2Proof.Safety Sys2Proof.CustodyProofs
open Sys2Proof.LineProofs hiding length_be

/-! ## Bytes at a place -/

/-- Bytes stand in an image from a place on. -/
def holdsAt (image bytes : List Byte) (a : Nat) : Prop :=
  ∃ before after, image = before ++ (bytes ++ after) ∧ before.length = a

theorem holdsAt_self (image : List Byte) : holdsAt image image 0 := ⟨[], [], by simp, rfl⟩

/-- Two parts that stand one after the other. -/
theorem holdsAt.split {image p q : List Byte} {a n : Nat} (h : holdsAt image (p ++ q) a) (length : p.length = n) :
    holdsAt image p a ∧ holdsAt image q (a + n) := by
  obtain ⟨before, after, rfl, rfl⟩ := h
  exact ⟨⟨before, q ++ after, by simp, rfl⟩, ⟨before ++ p, after, by simp, by simp [length]⟩⟩

/-- The byte at a place inside a part. -/
theorem holdsAt.byteAt {image bytes : List Byte} {a i : Nat} (h : holdsAt image bytes a) (inside : i < bytes.length) :
    byteAt image (a + i) = byteAt bytes i := by
  obtain ⟨before, after, rfl, rfl⟩ := h
  rw [byteAt_append_right (by omega), byteAt_append_left (by omega), Nat.add_sub_cancel_left]

/-- A part's first byte, and what stands after it. -/
theorem holdsAt.cons {image bytes : List Byte} {a : Nat} {b : Byte} (h : holdsAt image (b :: bytes) a) :
    Sys2Proof.byteAt image a = b ∧ holdsAt image bytes (a + 1) :=
  ⟨h.byteAt (i := 0) (by simp), (holdsAt.split (p := [b]) h rfl).2⟩

/-- The bytes from a place inside a part on. -/
theorem holdsAt.slice {image bytes : List Byte} {a i n : Nat} (h : holdsAt image bytes a)
    (inside : i + n ≤ bytes.length) :
    slice image (a + i) n = slice bytes i n := by
  obtain ⟨before, after, rfl, rfl⟩ := h
  rw [slice_append_right (by omega), slice_append_left (by omega), Nat.add_sub_cancel_left]

/-- Entries of one size stand one after the other. -/
theorem holdsAt.entry {α : Type} {image : List Byte} {f : α → List Byte} {k : Nat} {l : List α} {a : Nat}
    (h : holdsAt image (l.flatMap f) a) (each : ∀ x ∈ l, (f x).length = k) {i : Nat} (inside : i < l.length) :
    holdsAt image (f l[i]) (a + k * i) := by
  induction l generalizing a i with
  | nil => cases inside
  | cons x l ih =>
    rw [List.flatMap_cons] at h
    obtain ⟨first, rest⟩ := h.split (each x (by simp))
    cases i with
    | zero => exact first
    | succ i =>
      have place : a + k * (i + 1) = a + k + k * i := by ring
      rw [place]
      exact ih rest (fun y hy => each y (by simp [hy])) (Nat.lt_of_succ_lt_succ inside)

/-- Entries of one size are cut apart again (R178). -/
theorem holdsAt.readItems {α : Type} {image : List Byte} {f : α → List Byte} {k n : Nat} {l : List α} {a : Nat}
    (h : holdsAt image (l.flatMap f) a) (each : ∀ x ∈ l, (f x).length = k) (count : l.length = n) :
    readItems image a k n = l.map f := by
  obtain ⟨before, after, rfl, rfl⟩ := h
  subst count
  rw [Machine.readItems, List.drop_left]
  induction l with
  | nil => rfl
  | cons x l ih =>
    obtain ⟨rfl, each⟩ := List.forall_mem_cons.mp each
    rw [List.length_cons, chunks, List.flatMap_cons, List.append_assoc, List.take_left, List.drop_left, ih each,
      List.map_cons]

/-- A list of results that are all present, each the value that its bytes were written from. -/
theorem allSome_map_of_read {α β : Type} {l : List α} {f : β → Option α} {g : α → β} (h : ∀ x ∈ l, f (g x) = some x) :
    allSome ((l.map g).map f) = some l := by
  rw [allSome_eq_some_iff, List.map_map]
  exact List.map_congr_left h

/-! ## Entries written and read -/

/-- A number is read from its own bytes, when they hold it (R165). -/
theorem toNat_field_be {n w x : Nat} (wide : w = 8 * n) (h : x < 2 ^ w) : (field w (be n x)).toNat = x := by
  have bytes : 256 ^ n = 2 ^ w := by rw [wide, pow_mul]; rfl
  rw [field, beNat_be, bytes, BitVec.toNat_ofNat, Nat.mod_mod, Nat.mod_eq_of_lt h]

theorem toNat_byte {x : Nat} (h : x < 256) : (byte x).toNat = x := Nat.mod_eq_of_lt h

theorem clamp_of_mem {lo hi x : Nat} (low : lo ≤ x) (high : x ≤ hi) : clamp lo hi x = x := by
  unfold clamp
  omega

theorem denominationOf_bytes {d : Denomination} (h : denomLegal d) : denominationOf (denomField d.bytes) = some d := by
  obtain ⟨face, mass, spread⟩ := h
  have face' := toNat_field_be (n := 3) (w := 24) rfl (x := d.face) (by omega)
  have mass' := toNat_field_be (n := 2) (w := 16) rfl (x := d.mass) (by omega)
  simp [denominationOf, denomField, Denomination.bytes, face', mass', toNat_byte (x := d.spread) (by omega), face]

theorem staffOf_bytes {m : Staff} (h : 1 ≤ m.id ∧ m.id ≤ 999999) : staffOf (staffField m.bytes) = some m := by
  have id := toNat_field_be (n := 3) (w := 24) rfl (x := m.id) (by omega)
  exact staffOf_eq_some_iff.mpr ⟨⟨by simpa [staffField, Staff.bytes] using id, h⟩, by simp [staffField, Staff.bytes]⟩

theorem termOf_bytes (t : PolicyTerm) : termOf (termField t.bytes) = some t := termOf_eq_some_iff.mpr ⟨rfl, rfl⟩

/-- A roster is read as it was written (R136, R178). -/
theorem rosterOf_bytes {l : List Staff} (h : rosterLegal l) :
    rosterOf ((l.map Staff.bytes).map staffField) = some l := by
  obtain ⟨few, ids, distinct⟩ := h
  have read := allSome_map_of_read (f := fun c => staffOf (staffField c)) fun m hm => staffOf_bytes (ids m hm)
  simp only [rosterOf, List.length_map, if_pos few, List.map_map] at read ⊢
  exact Option.filter_eq_some_iff.mpr ⟨read, decide_eq_true distinct⟩

/-- A count policy is read as it was written (R152, R178). -/
theorem policyOf_bytes {l : List PolicyTerm} (few : l.length ≤ 4) :
    policyOf ((l.map PolicyTerm.bytes).map termField) = some l := by
  have read := allSome_map_of_read (f := fun c => termOf (termField c)) fun t (_ : t ∈ l) => termOf_bytes t
  simp only [policyOf, List.length_map, if_pos few, List.map_map] at read ⊢
  exact read

theorem tolFieldAt_of_holdsAt {image bytes : List Byte} {a : Nat} (h : holdsAt image bytes a)
    (length : bytes.length = 18) :
    tolFieldAt image a = tolFieldAt bytes 0 := by
  have start := h.slice (i := 0) (n := 3) (by omega)
  rw [Nat.add_zero] at start
  simp (disch := omega) only [tolFieldAt, start, h.slice, Nat.zero_add]

theorem timerFieldAt_of_holdsAt {image bytes : List Byte} {a : Nat} (h : holdsAt image bytes a)
    (length : bytes.length = 15) : timerFieldAt image a = timerFieldAt bytes 0 := by
  have start := h.slice (i := 0) (n := 2) (by omega)
  rw [Nat.add_zero] at start
  simp (disch := omega) only [timerFieldAt, start, h.slice, h.byteAt, Nat.zero_add]

theorem rangeFieldAt_of_holdsAt {image bytes : List Byte} {a : Nat} (h : holdsAt image bytes a)
    (length : 11 ≤ bytes.length) (group : List Byte) : rangeFieldAt image a group = rangeFieldAt bytes 0 group := by
  have start := h.byteAt (i := 0) (by omega)
  rw [Nat.add_zero] at start
  simp (disch := omega) only [rangeFieldAt, start, h.slice, h.byteAt, Nat.zero_add]

/-- A tolerance set is read as it was written (R50, R178). -/
theorem toleranceOf_bytes {t : ToleranceSet} (legal : tolLegal t) : toleranceOf (tolFieldAt t.bytes 0) = t := by
  obtain ⟨tare, tareSpread, lower, upper, plausMin, plausMax⟩ := legal
  have value {x top : Nat} (h : x ≤ top) (small : top ≤ 999999) : min top (field 24 (be 3 x)).toNat = x := by
    rw [toNat_field_be (n := 3) (w := 24) rfl (by omega), Nat.min_eq_right h]
  simp [toleranceOf, tolFieldAt, ToleranceSet.bytes, value tare, value tareSpread, value lower, value upper,
    value plausMin, value plausMax]

/-- The timers are read as they were written (R178, R180). -/
theorem timersOf_bytes {t : TimerValues} (legal : timersLegal t) :
    timersOf (timerFieldAt (t.bytes ++ be 2 t.enables.toNat) 0) = some t := by
  obtain ⟨grace, low1, high1, low2, high2, low3, high3, low4, high4, settle⟩ := legal
  have value {lo hi x : Nat} (low : lo ≤ x) (high : x ≤ hi) (top : hi ≤ 3600) :
      clamp lo hi (field 16 (be 2 x)).toNat = x := by
    rw [toNat_field_be (n := 2) (w := 16) rfl (by omega), clamp_of_mem low high]
  have one : be 1 t.handover = [byte t.handover] := by simp [be, byte]
  have handover : clamp 1 240 (byte t.handover).toNat = t.handover := by
    rw [toNat_byte (by omega), clamp_of_mem low1 high1]
  have enables : field 16 (be 2 t.enables.toNat) = t.enables := field_bytesOf (n := 2) t.enables (by decide)
  refine timersOf_eq_some_iff.mpr ?_
  simp [timerFieldAt, TimerValues.bytes, one, handover, enables, value (Nat.zero_le _) grace, value low2 high2,
    value low3 high3, value low4 high4, value (Nat.zero_le _) settle]

/-- A group is read as it was written (R32, R178). -/
theorem groupOf_bytes {e : RangeEntry} (legal : entryLegal e) :
    groupOf (e.group.map fun p => byte p.val) = some e.group := by
  obtain ⟨-, -, -, low, high, distinct, nonzero⟩ := legal
  refine groupOf_eq_some_iff.mpr ⟨low, high, ?_, distinct⟩
  rw [List.map_map]
  exact List.map_congr_left fun p hp => storagePocketOf_eq_some_iff.mpr ⟨toNat_byte (by omega), nonzero p hp⟩

/-- A range entry is read as it was written (R32, R178). -/
theorem rangeEntryOf_bytes {e : RangeEntry} (legal : entryLegal e) :
    rangeEntryOf (rangeFieldAt e.bytes 0 (e.group.map fun p => byte p.val)) = some e := by
  have group := groupOf_bytes legal
  obtain ⟨low, high, cap, -⟩ := legal
  have base : field 32 (be 4 e.base.toNat) = e.base := field_bytesOf (n := 4) e.base (by decide)
  have tolSet := toNat_byte (x := e.tolSet.val) (by omega)
  have cap' := toNat_byte (x := e.cap) (by omega)
  have length := toNat_byte (x := e.prefixLength) (by omega)
  refine rangeEntryOf_eq_some_iff.mpr ?_
  simp [rangeFieldAt, RangeEntry.bytes, base, tolSet, cap', length, group, cap, clamp_of_mem low high]

/-- A range entry is read from its place (R177, R178). -/
theorem readRange_of_holdsAt {image : List Byte} {e : RangeEntry} {i : Fin 8} (h : holdsAt image e.bytes (rangePlace i))
    (legal : entryLegal e) : readRange image i = some e := by
  have size : e.bytes.length = 11 + e.group.length := by
    simp [RangeEntry.bytes]
    omega
  have few := legal.length_group
  have count : (byteAt image (rangePlace i + 10)).toNat = e.group.length := by
    rw [h.byteAt (by omega)]
    simpa [RangeEntry.bytes] using toNat_byte (x := e.group.length) (by omega)
  have group : slice image (rangePlace i + 11) e.group.length = e.group.map fun p => byte p.val := by
    rw [h.slice (by omega)]
    simp [RangeEntry.bytes]
  simp only [readRange, count, if_pos few]
  rw [group, rangeFieldAt_of_holdsAt h (by omega), rangeEntryOf_bytes legal]

/-- The roster is read from its place (R136, R178). -/
theorem readRoster_of_holdsAt {image : List Byte} {l : List Staff}
    (h : holdsAt image (byte l.length :: l.flatMap Staff.bytes) rosterPlace) (legal : rosterLegal l) :
    readRoster image = some l := by
  obtain ⟨count, items⟩ := h.cons
  have few := legal.1
  simp only [readRoster, count, toNat_byte (x := l.length) (by omega), if_pos few]
  rw [items.readItems (fun m _ => by simp [Staff.bytes]) rfl, rosterOf_bytes legal]

/-- The count policy is read from its place (R152, R178). -/
theorem readPolicy_of_holdsAt {image : List Byte} {l : List PolicyTerm}
    (h : holdsAt image (byte l.length :: l.flatMap PolicyTerm.bytes) policyPlace) (few : l.length ≤ 4) :
    readPolicy image = some l := by
  obtain ⟨count, items⟩ := h.cons
  simp only [readPolicy, count, toNat_byte (x := l.length) (by omega), if_pos few]
  rw [items.readItems (fun t _ => rfl) rfl, policyOf_bytes few]

/-- The denominations are read from their place (R46, R178). -/
theorem denoms_of_holdsAt {image : List Byte} {v : Vector Denomination 16}
    (h : holdsAt image (v.toList.flatMap Denomination.bytes) 156) (legal : ∀ i : Fin 16, denomLegal v[i]) :
    allSome ((readItems image 156 6 16).map fun c => denominationOf (denomField c)) = some v.toList := by
  rw [h.readItems (fun d _ => by simp [Denomination.bytes]) Vector.length_toList]
  refine allSome_map_of_read fun d hd => denominationOf_bytes ?_
  obtain ⟨i, hi, rfl⟩ := Vector.mem_iff_getElem.mp (Vector.mem_toList_iff.mp hd)
  exact legal ⟨i, hi⟩

/-- A tolerance set is read from its place (R50, R178). -/
theorem tolerance_of_holdsAt {image : List Byte} {v : Vector ToleranceSet 4}
    (h : holdsAt image (v.toList.flatMap ToleranceSet.bytes) 252) (legal : ∀ i : Fin 4, tolLegal v[i]) (i : Fin 4) :
    toleranceOf (tolFieldAt image (252 + 18 * i.val)) = v[i] := by
  have entry := h.entry (i := i.val) (k := 18) (fun t _ => by simp [ToleranceSet.bytes]) (by simp)
  rw [Vector.getElem_toList] at entry
  rw [tolFieldAt_of_holdsAt entry (by simp [ToleranceSet.bytes])]
  exact toleranceOf_bytes (legal i)

/-- A capacity is read from its place (R75, R178). -/
theorem capacity_of_holdsAt {image : List Byte} {v : Vector Nat 20}
    (h : holdsAt image (v.toList.flatMap fun n => [byte n]) 324) (legal : ∀ i : Fin 20, v[i] ≤ 24) (i : Fin 20) :
    min Config.maxCapacity (byteAt image (324 + i.val)).toNat = v[i] := by
  have entry := h.entry (i := i.val) (k := 1) (fun n _ => rfl) (by simp)
  rw [Vector.getElem_toList, Nat.one_mul] at entry
  have bound : v[i] ≤ 24 := legal i
  rw [entry.cons.1, ← Fin.getElem_fin, toNat_byte (by omega), Config.maxCapacity, Nat.min_eq_right bound]

/-- A vector is made again of the list of its places. -/
theorem ofFn_getD_toList {α : Type} {n : Nat} (v : Vector α n) (d : α) :
    (Vector.ofFn fun i : Fin n => v.toList.getD i.val d) = v := by
  ext i hi
  simp

/-! ## The parts of the image -/

/-- The roster with its count and its unused places (R177). -/
def rosterImage (x : SettingValues) (save : Nat) : List Byte :=
  byte x.roster.length :: (x.roster.flatMap Staff.bytes ++
    unusedPlaces save (rosterPlace + 1 + 4 * x.roster.length) (64 - 4 * x.roster.length))

/-- The count policy with its count and its unused places (R177). -/
def policyImage (x : SettingValues) (save : Nat) : List Byte :=
  byte x.policy.length :: (x.policy.flatMap PolicyTerm.bytes ++
    unusedPlaces save (policyPlace + 1 + 2 * x.policy.length) (8 - 2 * x.policy.length))

theorem image_eq_parts (x : SettingValues) (save : Nat) : x.image save =
    (1#8 :: be 2 imageLength) ++ (((List.finRange 8).flatMap fun i => rangeImage save x.entries[i] i) ++
      ([yesNo x.general] ++ (x.denoms.toList.flatMap Denomination.bytes ++
        (x.tols.toList.flatMap ToleranceSet.bytes ++ (x.capacities.toList.flatMap (fun n => [byte n]) ++
          (rosterImage x save ++ (policyImage x save ++ ((x.timers.bytes ++ be 2 x.timers.enables.toNat) ++
            be 2 (crc16 (x.body save)).toNat)))))))) := by
  rw [← List.map_eq_flatMap]
  simp [SettingValues.image, SettingValues.body, rosterImage, policyImage]

section Parts

variable {x : SettingValues} (legal : settingsLegal x) (save : Nat)

include legal

/-- Where each part of the image stands (R177). -/
theorem image_parts : holdsAt (x.image save) (1#8 :: be 2 imageLength) 0 ∧
    (∀ i : Fin 8, holdsAt (x.image save) (x.entries[i]).bytes (rangePlace i)) ∧
    holdsAt (x.image save) [yesNo x.general] 155 ∧
    holdsAt (x.image save) (x.denoms.toList.flatMap Denomination.bytes) 156 ∧
    holdsAt (x.image save) (x.tols.toList.flatMap ToleranceSet.bytes) 252 ∧
    holdsAt (x.image save) (x.capacities.toList.flatMap fun n => [byte n]) 324 ∧
    holdsAt (x.image save) (byte x.roster.length :: x.roster.flatMap Staff.bytes) 344 ∧
    holdsAt (x.image save) (byte x.policy.length :: x.policy.flatMap PolicyTerm.bytes) 409 ∧
    holdsAt (x.image save) (x.timers.bytes ++ be 2 x.timers.enables.toNat) 418 ∧
    holdsAt (x.image save) (be 2 (crc16 (x.body save)).toNat) 433 := by
  obtain ⟨entries, -, -, -, roster, policy, -⟩ := settingsLegal_iff.mp legal
  have each : ∀ i ∈ List.finRange 8, (rangeImage save x.entries[i] i).length = 19 :=
    fun i _ => length_rangeImage (entries i).length_group save i
  have staff : (x.roster.flatMap Staff.bytes).length = x.roster.length * 4 :=
    length_flatMap_of_forall fun m _ => by simp [Staff.bytes]
  have terms : (x.policy.flatMap PolicyTerm.bytes).length = x.policy.length * 2 :=
    length_flatMap_of_forall fun t _ => by simp [PolicyTerm.bytes]
  have few := roster.1
  have whole := holdsAt_self (x.image save)
  nth_rw 2 [image_eq_parts] at whole
  obtain ⟨header, rest⟩ := whole.split (n := 3) (by simp)
  obtain ⟨ranges, rest⟩ := rest.split (n := 152) (by rw [length_flatMap_of_forall each, List.length_finRange])
  obtain ⟨general, rest⟩ := rest.split (n := 1) rfl
  obtain ⟨denoms, rest⟩ := rest.split (n := 96)
    (by rw [length_flatMap_of_forall (k := 6) fun d _ => by simp [Denomination.bytes], Vector.length_toList])
  obtain ⟨tols, rest⟩ := rest.split (n := 72)
    (by rw [length_flatMap_of_forall (k := 18) fun t _ => by simp [ToleranceSet.bytes], Vector.length_toList])
  obtain ⟨capacities, rest⟩ := rest.split (n := 20)
    (by rw [length_flatMap_of_forall (k := 1) fun c _ => rfl, Vector.length_toList])
  obtain ⟨roster, rest⟩ := rest.split (n := 65) (by
    rw [rosterImage, List.length_cons, List.length_append, staff, length_unusedPlaces]
    omega)
  obtain ⟨policy, rest⟩ := rest.split (n := 9) (by
    rw [policyImage, List.length_cons, List.length_append, terms, length_unusedPlaces]
    omega)
  obtain ⟨timers, crc⟩ := rest.split (n := 15) (by simp [TimerValues.bytes])
  rw [rosterImage, ← List.cons_append] at roster
  rw [policyImage, ← List.cons_append] at policy
  refine ⟨header, fun i => ?_, general, denoms, tols, capacities, (roster.split rfl).1, (policy.split rfl).1, timers, crc⟩
  have entry := ranges.entry (i := i) each (by simp)
  rw [rangeImage] at entry
  simpa [rangePlace] using (entry.split rfl).1

/-- The settings are read from their own image (R177, R178). -/
theorem readSettings_image : readSettings (x.image save) = some x := by
  obtain ⟨-, ranges, general, denoms, tols, capacities, roster, policy, timers, -⟩ := image_parts legal save
  obtain ⟨entriesLegal, denomsLegal, tolsLegal, capacitiesLegal, rosterLegal, policyLegal, timersLegal⟩ :=
    settingsLegal_iff.mp legal
  have entries : allSome ((List.finRange 8).map (readRange (x.image save))) = some x.entries.toList := by
    have places : x.entries.toList = (List.finRange 8).map fun i => x.entries[i] := by
      refine List.ext_getElem (by simp) fun i _ _ => ?_
      simp
    rw [places, allSome_eq_some_iff, List.map_map]
    exact List.map_congr_left fun i _ => readRange_of_holdsAt (ranges i) (entriesLegal i)
  have timersRead : readTimers (x.image save) = some x.timers := by
    rw [readTimers, timerPlace, timerFieldAt_of_holdsAt timers (by simp [TimerValues.bytes]), timersOf_bytes timersLegal]
  simp only [readSettings, entries, general.cons.1, flagOf_eq_some_iff.mpr rfl, denoms_of_holdsAt denoms denomsLegal,
    readRoster_of_holdsAt roster rosterLegal, readPolicy_of_holdsAt policy policyLegal, timersRead,
    tolerance_of_holdsAt tols tolsLegal, capacity_of_holdsAt capacities capacitiesLegal,
    Option.bind_eq_bind, Option.bind_some, ofFn_getD_toList,
    Fin.getElem_fin, Vector.ofFn_getElem]

end Parts

end Sys2Proof.SettingsProofs
end

section
/-! PROOF. A restart loads the settings by the first row of R178 that holds, after a save cut short too (R177 to R179,
R182). -/

namespace Sys2Proof.SettingsProofs

open Sys2Proof.Machine Sys2Proof.Safety Sys2Proof.CustodyProofs
open Sys2Proof.LineProofs hiding length_be

/-! ## The rows of R178 -/

theorem length_readMany (m : Memory) (a n : Nat) : (m.readMany a n).length = n := by simp [Memory.readMany]

theorem byteAt_readMany {m : Memory} {a n : Nat} (h : a < n) : byteAt (m.readMany 0 n) a = m.read a := by
  simp [byteAt, Memory.readMany, h]

theorem slice_two {bytes : List Byte} {a : Nat} (h : a + 2 ≤ bytes.length) :
    slice bytes a 2 = [byteAt bytes a, byteAt bytes (a + 1)] := by
  rw [singleton_byteAt (a := a + 1) (by omega), byteAt_cons_slice (by omega) rfl]

/-- Two bytes are a number when they are its bytes (R165). -/
theorem field_eq_iff {bytes : List Byte} {n w : Nat} {x : BitVec w} (length : bytes.length = n) (wide : w = 8 * n) :
    field w bytes = x ↔ bytes = bytesOf n x := by
  constructor
  · rintro rfl
    exact (bytesOf_field length wide).symm
  · rintro rfl
    exact field_bytesOf x wide.le

/-- The checks of an image that is not blank (R178). -/
theorem checkImage_eq_some_iff {image : List Byte} (length : image.length = 435) {x : SettingValues} :
    checkImage image = some x ↔ byteAt image 0 = 1#8 ∧ [byteAt image 1, byteAt image 2] = be 2 435 ∧
      [byteAt image 433, byteAt image 434] = be 2 (crc16 (image.take 433)).toNat ∧ readSettings image = some x := by
  have header : field 16 (slice image 1 2) = BitVec.ofNat 16 imageLength ↔
      [byteAt image 1, byteAt image 2] = be 2 435 := by
    rw [field_eq_iff (n := 2) (length_slice (by omega)) rfl, slice_two (by omega)]
    rfl
  have crc : crc16 (image.take (imageLength - 2)) = field 16 (slice image (imageLength - 2) 2) ↔
      [byteAt image 433, byteAt image 434] = be 2 (crc16 (image.take 433)).toNat := by
    rw [show imageLength - 2 = 433 from rfl, eq_comm, field_eq_iff (n := 2) (length_slice (by omega)) rfl,
      slice_two (by omega)]
    rfl
  simp only [checkImage, Option.ite_none_right_eq_some, header, crc, and_assoc]

/-- An image whose general-routing flag is neither 0 nor 1 is not read (R178). -/
theorem readSettings_of_badFlag {image : List Byte} (bad : 1 < (byteAt image 155).toNat) : readSettings image = none := by
  refine Option.eq_none_iff_forall_ne_some.mpr fun x read => ?_
  simp only [readSettings, flagOf_eq_none bad, Option.bind_eq_bind, Option.bind_none, Option.bind_eq_some_iff,
    reduceCtorEq, and_false, exists_false] at read

theorem loadSettings_off (answers : Bool) (image : List Byte) :
    loadSettings true answers image = (.defaults, defaultSettings) := rfl

theorem loadSettings_silent (image : List Byte) : loadSettings false false image = (.bad, defaultSettings) := rfl

theorem headerBlank_iff {image : List Byte} :
    headerBlank image = true ↔ byteAt image 0 = 0xFF#8 ∧ byteAt image 1 = 0xFF#8 := by
  simp [headerBlank]

theorem loadSettings_blank {image : List Byte} (blank : byteAt image 0 = 0xFF#8 ∧ byteAt image 1 = 0xFF#8) :
    loadSettings false true image = (.blank, defaultSettings) := by
  simp only [loadSettings, headerBlank_iff.mpr blank]
  rfl

theorem loadSettings_bad {image : List Byte} (written : ¬ (byteAt image 0 = 0xFF#8 ∧ byteAt image 1 = 0xFF#8))
    (unread : checkImage image = none) : loadSettings false true image = (.bad, defaultSettings) := by
  simp only [loadSettings, Bool.eq_false_iff.mpr (headerBlank_iff.not.mpr written), unread]
  rfl

theorem loadSettings_loaded {image : List Byte} {x : SettingValues} (read : checkImage image = some x)
    (length : image.length = 435) :
    loadSettings false true image = (.loaded, x) := by
  have format := ((checkImage_eq_some_iff length).mp read).1
  have written : headerBlank image = false := by simp [headerBlank, format]
  simp only [loadSettings, written, read]
  rfl

/-- An image of settings in their ranges passes every check and is read as the settings (R177, R178). -/
theorem checkImage_image {x : SettingValues} (legal : settingsLegal x) (save : Nat) :
    checkImage (x.image save) = some x := by
  obtain ⟨header, -, -, -, -, -, -, -, -, crc⟩ := image_parts legal save
  have length := length_image legal save
  have body : (x.image save).take 433 = x.body save := by
    have size : (x.body save).length = 433 := by
      simp only [SettingValues.image, List.length_append, length_be] at length
      omega
    rw [SettingValues.image, ← size, List.take_left]
  have sum := crc.slice (i := 0) (n := 2) (by simp)
  rw [slice_two (by omega), slice_eq_self (by simp)] at sum
  refine (checkImage_eq_some_iff length).mpr ⟨header.cons.1, ?_, ?_, readSettings_image legal save⟩
  · have size := header.cons.2.slice (i := 0) (n := 2) (by simp)
    rwa [slice_two (by omega), slice_eq_self (by simp)] at size
  · rwa [body]

/-! ## The restart -/

/-- What a restart takes, and the settings that it stands on: a save under way has left its first writes (R178, R182). -/
def startLoad (s : State) (straps : Straps) (answers : Bool) (n : Nat) : LoadOutcome × SettingValues :=
  loadSettings straps.autoloadOff answers (Memory.readMany (eepromAfter s.ss n) 0 435)

theorem restartRestored_ss (s : State) (straps : Straps) (pins : Levels) (n : Nat) (answers lost : Bool) :
    (restartRestored s straps pins n answers lost).ss = { s.ss with
      straps, saving := none, eeprom := eepromAfter s.ss n, outcome := (startLoad s straps answers n).1
      notConfigured := decide ((startLoad s straps answers n).1 = .blank ∨ (startLoad s straps answers n).1 = .bad) } := by
  cases lost <;> rfl

/-- At start-up SETTINGS_FAULT is raised exactly after BAD (R171, R178, R183). -/
theorem startUpFlags_settingsFault {s : State} (clear : s.ls.flags = Vector.replicate 16 {}) :
    s.startUpFlags.ls.flags[StatusFlag.settingsFault.place].set = (s.ss.outcome == .bad) := by
  have cleared : ∀ i : Fin 16, s.ls.flags[i] = {} := by simp [clear]
  simp only [State.startUpFlags, raiseWhen_flags, cleared]
  cases s.ss.outcome <;> simp [StatusFlag.place, FlagCell.raise]

/-- What a restart does to the settings and their store: it loads what it finds, with no save under way (R178, R179,
R182). -/
theorem restart_loads (straps : Straps) (pins : Levels) (lost answers : Bool) (n : Nat) (s : State) :
    ∃ t, exec (.restart straps pins lost answers n) s = .next t ∧ t.settings = (startLoad s straps answers n).2 ∧
      t.ss = { s.ss with
        straps, saving := none, eeprom := eepromAfter s.ss n, outcome := (startLoad s straps answers n).1
        notConfigured := decide ((startLoad s straps answers n).1 = .blank ∨ (startLoad s straps answers n).1 = .bad) } ∧
      t.ls.flags[StatusFlag.settingsFault.place].set = ((startLoad s straps answers n).1 == .bad) := by
  refine ⟨_, exec_restart .., ?_⟩
  generalize (lost || !s.cr.storeValid) = gone
  have cold := coldStart_restartRestored s straps pins n answers gone
  have kept := startKept_restart cold
  obtain ⟨-, -, ss, -⟩ := restartStarted_frame (restartRestored s straps pins n answers gone)
  obtain ⟨-, -, -, ls⟩ := restartStarted_ls (restartRestored s straps pins n answers gone)
  obtain ⟨-, -, -, -, refilled, -⟩ := refill_frame (restartRestored s straps pins n answers gone)
  refine ⟨?_, ?_, ?_⟩
  · calc (restartStarted (restartRestored s straps pins n answers gone)).secondPart.settings
        = (restartLoaded s straps pins n answers).settings :=
          (settings_of_view ((settingsView_startUp _).trans ((settingsView_refill _).trans (settingsView_restore _ _)))).1
      _ = (startLoad s straps answers n).2 := settings_install ..
  · rw [kept.ss, ss, restartRestored_ss]
  · rw [kept.flags _ (by decide), ls, startUpFlags_settingsFault (refill_flags cold), refilled, restartRestored_ss]

/-- Settles O52: each row of R178 as the load takes it, and an image that is read as the settings that it was made of. -/
theorem restartLoadsTheSettings : Obligations.RestartLoadsTheSettings := by
  intro straps pins lost answers n s loads at_
  have taken {x : SettingValues} {outcome : LoadOutcome} (h : startLoad s straps answers n = (outcome, x)) :
      loads x outcome (!decide (outcome = .blank ∨ outcome = .bad)) (outcome == .bad) := by
    obtain ⟨t, next, settings, ss, fault⟩ := restart_loads straps pins lost answers n s
    rw [h] at settings ss fault
    exact ⟨t, next, settings, by rw [ss], by rw [ss, Bool.not_not], fault⟩
  refine ⟨fun off => ?_, fun on silent => ?_, fun on answers' free => ?_⟩
  · exact taken (by rw [startLoad, off, loadSettings_off])
  · exact taken (by rw [startLoad, on, silent, loadSettings_silent])
  have found : startLoad s straps answers n = loadSettings false true (Memory.readMany s.ss.eeprom 0 435) := by
    rw [startLoad, on, answers', eepromAfter, free]
  have length := length_readMany s.ss.eeprom 0 435
  have byte (a : Nat) (h : a < 435) : byteAt (Memory.readMany s.ss.eeprom 0 435) a = at_ a := byteAt_readMany h
  have b0 := byte 0 (by decide)
  have b1 := byte 1 (by decide)
  refine ⟨fun blank => ?_, fun written wrong => ?_, fun x save legal held => ?_⟩
  · exact taken (found.trans (loadSettings_blank (by rwa [b0, b1])))
  · refine taken (found.trans (loadSettings_bad (by rwa [b0, b1]) ?_))
    refine Option.eq_none_iff_forall_ne_some.mpr fun x read => ?_
    obtain ⟨format, size, crc, fields⟩ := (checkImage_eq_some_iff length).mp read
    have covered : (Memory.readMany s.ss.eeprom 0 435).take 433 = (List.range 433).map at_ := by
      simp [Memory.readMany, ← List.map_take, List.take_range, at_]
    rw [b0] at format
    rw [b1, byte 2 (by decide)] at size
    rw [byte 433 (by decide), byte 434 (by decide), covered] at crc
    obtain bad | bad | bad | bad := wrong
    · exact bad format
    · exact bad size
    · exact bad crc
    · rw [readSettings_of_badFlag (by rwa [byte 155 (by decide)])] at fields
      cases fields
  · have image : Memory.readMany s.ss.eeprom 0 435 = x.image save := (readMany_eq_iff (length_image legal save)).mpr held
    exact taken (found.trans (loadSettings_loaded (by rw [image, checkImage_image legal]) length))

/-- Settles O26: the format byte is written first and last, so that a save cut short between the two leaves an image that
fails its first check. -/
theorem interruptedSaveIsBad : Obligations.InterruptedSaveIsBad := by
  intro straps pins lost n copy s canonical saving whole first last on
  have after : eepromAfter s.ss n = Memory.writeAll s.ss.eeprom ((saveWrites copy).take n) := by
    rw [eepromAfter, saving]
  have format : Memory.read (eepromAfter s.ss n) 0 = 0#8 := by
    rw [after, read_zero_of_interrupted canonical copy first last]
  have byte : byteAt (Memory.readMany (eepromAfter s.ss n) 0 435) 0 = 0#8 := (byteAt_readMany (by decide)).trans format
  have bad : startLoad s straps true n = (.bad, defaultSettings) := by
    rw [startLoad, on]
    refine loadSettings_bad (by simp [byte]) (Option.eq_none_iff_forall_ne_some.mpr fun x read => ?_)
    have one := ((checkImage_eq_some_iff (length_readMany ..)).mp read).1
    simp [byte] at one
  obtain ⟨t, next, settings, ss, fault⟩ := restart_loads straps pins lost true n s
  rw [bad] at settings ss fault
  refine ⟨t, next, ?_, ?_, ?_, ?_, settings, fault⟩ <;> rw [ss]
  · exact format
  · rfl

end Sys2Proof.SettingsProofs
end

section
/-! PROOF. The queue of commands: what a step does with its front, and with none. -/

namespace Sys2Proof.PendingProofs

open Sys2Proof.Machine

/-- On an empty queue the block idles (log 1). -/
theorem step_of_pending_nil {s : State} (empty : s.pending = []) : step s = .next s := by
  unfold step
  rw [empty]

/-- The command at the front runs with only the rest left in the queue. -/
theorem step_of_pending_cons {s : State} {c : Instr} {rest : List Instr} (front : s.pending = c :: rest) :
    step s = exec c (s.withPending rest) := by
  unfold step
  rw [front]

/-- Settles O1: `step` splits on the queue, and each clause is one of its two cases; the queue at reset is empty. -/
theorem stepRunsTheFrontCommand : Obligations.StepRunsTheFrontCommand :=
  ⟨fun _ _ _ front => step_of_pending_cons front, fun _ empty => step_of_pending_nil empty, rfl⟩

end Sys2Proof.PendingProofs
end
